-- ==== Sys2Proof/Word.lean ====
section
/-! DEFINITION. The word types of JFD (spec/00_scope.md R8, R11; spec/30_encoding.md R80). Bit 0 is the least
significant bit throughout (R9). -/

namespace Sys2Proof

/-- u8: a byte of the serial stream. -/
abbrev Byte := BitVec 8

/-- u16: distance, strength, raw temperature, a window element, the mean. -/
abbrev U16 := BitVec 16

/-- s17: a 17-bit two's-complement integer (`smp.temp_q3`). -/
abbrev S17 := BitVec 17

/-- An event word: OP in bits [11:8], DATA in bits [7:0]. -/
abbrev EventWord := BitVec 12

end Sys2Proof
end

