-- ==== Sys2Proof/Config.lean ====
section
/-! DEFINITION. The implementation parameters of JFD (spec/00_scope.md R7). -/

namespace Sys2Proof

/-- R7: the configuration record, fixed for a whole run. `n` is the window capacity `N`; the record is a JFD
configuration only if `Config.wf` holds (R214). `FRAME_LEN` is the constant 9, no field. -/
structure Config where
  sync0 : Byte
  sync1 : Byte
  n : Nat
  minStrength : U16
  aggPresent : Bool
  deriving DecidableEq, Repr

/-- R7: the defaults. PRESUMED (log entry 2, unsafe for claims about this very value): the sync bytes 0x59 0x59 are
the spec's own "from general knowledge, not in source". -/
def Config.default : Config where
  sync0 := 0x59
  sync1 := 0x59
  n := 5
  minStrength := 50
  aggPresent := true

end Sys2Proof
end

