-- ==== Sys2Proof/Syntax.lean ====
section
/-! DEFINITION. The input events of JFD, one constructor per row of spec/opcode_table.json (spec/30_encoding.md R81),
what decoding a word answers (R86), a row of the opcode table, and the assembler's lines (R90 to R92). -/

namespace Sys2Proof

/-- R81: the input events. ACCEPT is internal and has no constructor (R87). -/
inductive Instr where
  /-- RXB: byte `b` received (40_decoder.md R113). -/
  | rxb (b : Byte)
  /-- TMO: the front end's read timeout elapsed (R115). -/
  | tmo
  /-- IOERR: the stream is unreadable or closed (R119). -/
  | ioerr
  /-- RDAVG: read the latest reading (41_aggregator.md R147). -/
  | rdavg
  /-- RDSTAT: read the status word (42_control.md R160). -/
  | rdstat
  /-- RST: reset (42_control.md R162). -/
  | rst
  deriving DecidableEq, Repr

/-- R86: what decoding a 12-bit word answers: an event, or `Reserved(w)` (R84: a reserved OP, or an OP without operand
whose DATA is not 0). -/
inductive Decoded where
  | event (i : Instr)
  | reserved (w : EventWord)
  deriving DecidableEq, Repr

/-- One row of the opcode table (spec/opcode_table.json): a word `w` is of the row iff `w &&& mask = pattern`. -/
structure OpRow where
  mnemonic : String
  pattern : EventWord
  mask : EventWord
  deriving DecidableEq, Repr

/-- R90 to R92: a line of the assembler, parsed. -/
inductive AsmLine where
  /-- one event line: rxb, tmo, ioerr, rdavg, rdstat, rst (R90) -/
  | event (i : Instr)
  /-- rxs b0 … bk: the bytes in that order (R91) -/
  | rxs (bytes : List Byte)
  /-- rxf d s t, or rxf d s t cs=c with the given checksum byte (R92) -/
  | rxf (d s t : U16) (cs : Option Byte)
  deriving DecidableEq, Repr

end Sys2Proof
end

