-- ==== Sys2Proof/WellFormed.lean ====
section
/-! DEFINITION. Which terms are well formed. -/

namespace Sys2Proof

/-- Every event is well formed: all 256 values of RXB's DATA are legal (R82), and no other event has an operand
(R85). The match is written out so that a new constructor cannot slip past. -/
def Instr.wf : Instr → Bool
  | .rxb _ => true
  | .tmo => true
  | .ioerr => true
  | .rdavg => true
  | .rdstat => true
  | .rst => true

/-- R214: a configuration is a JFD configuration iff `1 ≤ N ≤ 15`. -/
def Config.wf (c : Config) : Bool := decide (1 ≤ c.n) && decide (c.n ≤ 15)

/-- R91: rxs sends `b0 … bk`, at least one byte. -/
def AsmLine.wf : AsmLine → Bool
  | .event i => i.wf
  | .rxs bytes => !bytes.isEmpty
  | .rxf _ _ _ _ => true

end Sys2Proof
end

