-- ==== Sys2Proof/Decode.lean ====
section
/-! DEFINITION. The event word: decoder, encoder, opcode table (spec/30_encoding.md R80 to R86). -/

namespace Sys2Proof

/-- R80: OP is bits [11:8]. -/
def opField (w : EventWord) : BitVec 4 := w.extractLsb' 8 4

/-- R80, R85: DATA is bits [7:0], neither extended nor scaled. -/
def dataField (w : EventWord) : Byte := w.extractLsb' 0 8

/-- R86: decoding is total on 12-bit words; what is reserved or illegal (R84) is answered by name. -/
def decode (w : EventWord) : Decoded :=
  let op := opField w
  let d := dataField w
  if op = 0x0 then .event (.rxb d)
  else if op = 0x1 ∧ d = 0 then .event .tmo
  else if op = 0x2 ∧ d = 0 then .event .ioerr
  else if op = 0x3 ∧ d = 0 then .event .rdavg
  else if op = 0x4 ∧ d = 0 then .event .rdstat
  else if op = 0x5 ∧ d = 0 then .event .rst
  else .reserved w

/-- R82, R83: the word of an event. -/
def encode : Instr → EventWord
  | .rxb b => 0b0000#4 ++ b
  | .tmo => 0x100
  | .ioerr => 0x200
  | .rdavg => 0x300
  | .rdstat => 0x400
  | .rst => 0x500

/-- The row of spec/opcode_table.json an event belongs to (R82, R83: match and mask). -/
def rowOf : Instr → OpRow
  | .rxb _ => ⟨"RXB", 0x000, 0xF00⟩
  | .tmo => ⟨"TMO", 0x100, 0xFFF⟩
  | .ioerr => ⟨"IOERR", 0x200, 0xFFF⟩
  | .rdavg => ⟨"RDAVG", 0x300, 0xFFF⟩
  | .rdstat => ⟨"RDSTAT", 0x400, 0xFFF⟩
  | .rst => ⟨"RST", 0x500, 0xFFF⟩

/-- spec/opcode_table.json, in its order. -/
def opcodeTable : List OpRow :=
  [⟨"RXB", 0x000, 0xF00⟩, ⟨"TMO", 0x100, 0xFFF⟩, ⟨"IOERR", 0x200, 0xFFF⟩,
   ⟨"RDAVG", 0x300, 0xFFF⟩, ⟨"RDSTAT", 0x400, 0xFFF⟩, ⟨"RST", 0x500, 0xFFF⟩]

/-- A word is of a row. -/
def OpRow.matches (r : OpRow) (w : EventWord) : Bool := w &&& r.mask == r.pattern

/-- The low `nbits` bits of a number, as an event word. Bits above bit 11 do not exist in an event word (R86: "Every
word has a single length, 12 bits"). -/
def tableWord (nbits w : Nat) : EventWord := BitVec.ofNat 12 (w % 2 ^ nbits)

/-- The event the decoder reads from the low `nbits` bits of `w`; none where the decoder refuses, and none where a bit
above bit 11 is set, since that is no event word (log entry 13). -/
def decodeTableWord (nbits w : Nat) : Option Instr :=
  if w % 2 ^ nbits < 2 ^ 12 then
    match decode (tableWord nbits w) with
    | .event i => some i
    | .reserved _ => none
  else none

end Sys2Proof
end

