-- ==== Sys2Proof/Machine/State.lean ====
section
/-! DEFINITION. The state of JFD as plain data (spec/10_state.md R20 to R35), the output record of a step
(spec/00_scope.md R14), the reasons for a refusal, and the state after reset. -/

namespace Sys2Proof.Machine

open Sys2Proof

/-- R21: the decoder's scan position. -/
inductive Phase where
  /-- no byte of the current pair has been read -/
  | pair0
  /-- one byte of the current pair has been read and is in `h0` -/
  | pair1
  /-- the sync word matched and `len(body)` body bytes have been read -/
  | body
  /-- a SerialIOError happened; terminated until RST -/
  | halted
  deriving DecidableEq, Repr

/-- R28: the sample output registers. `tempQ3` is `temp_raw − 2048`, the temperature in units of 1/8 °C. -/
structure Sample where
  distance : U16
  strength : U16
  tempRaw : U16
  tempQ3 : S17
  deriving DecidableEq, Repr

/-- R181: the event code of a step. The reserved code 7 is never put out and has no constructor. -/
inductive EventCode where
  | none
  | pass
  | low
  | syncErr
  | short
  | csumErr
  | ioErr
  deriving DecidableEq, Repr

/-- R61: a word a read moves out of the block: RDAVG's 17 bits (R88) or RDSTAT's 16 (R89). -/
inductive ReadWord where
  | avg (w : BitVec 17)
  | status (w : BitVec 16)
  deriving DecidableEq, Repr

/-- R14: the output record of a step. -/
structure Output where
  sample : Option Sample
  pass : Bool
  ev : EventCode
  rd : Option ReadWord
  deriving DecidableEq, Repr

/-- The output of a step that has nothing to report (R29, R112, R162). -/
def Output.silent : Output where
  sample := .none
  pass := false
  ev := .none
  rd := .none

/-- R20: the state record, with the configuration (R7; log entry 1), the event words still to be taken (R80; log
entry 3) and the last step's output record (R14; log entry 5), the three of which are the model's own fields. -/
@[ext]
structure State where
  /-- R7, R33: fixed for the run; no event writes it -/
  cfg : Config
  phase : Phase
  /-- R22: the first byte of the current pair; meaningful only in PAIR1 -/
  h0 : Byte
  /-- R23: the frame bytes 2 onward read so far -/
  body : List Byte
  /-- R24: the sliding window, oldest first -/
  win : List U16
  /-- R28: the last sample put out -/
  smp : Sample
  /-- R16: the sticky refusal mark -/
  refused : Bool
  /-- R212: an RST has happened -/
  resetSeen : Bool
  /-- the model's own: event words not yet taken, next first -/
  pending : List EventWord
  /-- the model's own: the output record of the last step -/
  out : Output
  deriving DecidableEq, Repr

/-- R15: "JFD has no fault outcome". No constructor; nothing raises a fault (log entry 18). -/
inductive Fault where
  deriving DecidableEq, Repr

/-- Why an event has no step (R15, R16). Every one of these is safe: where the model refuses, nothing is claimed. -/
inductive Refusal where
  /-- an instruction without a meaning; raised by no arm of this model. Safe. -/
  | notModelled (mnemonic : String)
  /-- R84, R86: a reserved or illegal event word; raised by `step` when the decoder answers `Reserved(w)`. Safe. -/
  | reserved (w : EventWord)
  /-- R212: an event other than RST before the first RST; raised by the meanings through `afterReset`. Safe. -/
  | beforeReset
  /-- R148: RDAVG when `AGG_PRESENT` is false; raised by RDAVG's meaning. Safe. -/
  | aggregatorAbsent
  /-- R214: the configuration in use is not the state's; raised by `stepUnder`. Safe. -/
  | configChanged
  /-- R214: `N` outside 1 to 15; raised by `elaborate`, `step` and `clockEdge`. Safe. -/
  | badConfig
  deriving DecidableEq, Repr

/-- R28, R35: the sample registers after reset. -/
def Sample.zero : Sample where
  distance := 0
  strength := 0
  tempRaw := 0
  tempQ3 := 0

/-- R35, R210: the state after RST under a configuration, with no event pending. -/
def State.resetWith (cfg : Config) : State where
  cfg := cfg
  phase := .pair0
  h0 := 0x00
  body := []
  win := []
  smp := Sample.zero
  refused := false
  resetSeen := true
  pending := []
  out := Output.silent

/-- The machine right after reset, under the default configuration of R7 (log entry 2). -/
def State.reset : State := State.resetWith Config.default

end Sys2Proof.Machine
end

