-- ==== Sys2Proof/Machine/Flags.lean ====
section
/-! DEFINITION. What JFD has in place of flags: event codes (spec/60_exceptions.md R181), the mean of the window
(spec/41_aggregator.md R144), the latest-reading output (spec/10_state.md R30) and the STATUS word (R31). -/

namespace Sys2Proof.Machine

open Sys2Proof

/-- R181: the 3-bit code of an event. -/
def EventCode.code : EventCode → BitVec 3
  | .none => 0
  | .pass => 1
  | .low => 2
  | .syncErr => 3
  | .short => 4
  | .csumErr => 5
  | .ioErr => 6

/-- R21: the 2-bit code of a phase in STATUS. -/
def Phase.code : Phase → BitVec 2
  | .pair0 => 0
  | .pair1 => 1
  | .body => 2
  | .halted => 3

/-- R12, R144: the exact sum of the window. -/
def winSum (win : List U16) : Nat := (win.map BitVec.toNat).sum

/-- R25, R144: LatestAverage, the truncated mean; none when the window is empty. -/
def latest (win : List U16) : Option U16 :=
  if win.isEmpty then none else some (BitVec.ofNat 16 (winSum win / win.length))

/-- R30: `avg_valid`. -/
def avgValid (s : State) : Bool := (latest s.win).isSome

/-- R30: `avg_value`, 0x0000 when there is no mean. -/
def avgValue (s : State) : U16 := (latest s.win).getD 0

/-- R88: the RDAVG result `{avg_valid, avg_value[15:0]}`. -/
def avgWord (s : State) : BitVec 17 :=
  match latest s.win with
  | none => 0x00000
  | some m => 1#1 ++ m

/-- R31: BODY_COUNT, the number of body bytes held in BODY and 0 in any other phase. -/
def bodyCount (s : State) : Nat := if s.phase = .body then s.body.length else 0

/-- R31, R160: STATUS, from bit 15 down: 4 reserved bits, WIN_COUNT, a reserved bit, BODY_COUNT, PHASE, AVG_VALID,
IO_FAULT. -/
def statusWord (s : State) : BitVec 16 :=
  0#4 ++ BitVec.ofNat 4 s.win.length ++ 0#1 ++ BitVec.ofNat 3 (bodyCount s) ++ s.phase.code
    ++ BitVec.ofBool (!s.win.isEmpty) ++ BitVec.ofBool (decide (s.phase = .halted))

end Sys2Proof.Machine
end

