-- ==== Sys2Proof/Machine/Operands.lean ====
section
/-! DEFINITION. The serial frame: byte order, assembly, checksum, validity, fields, temperature and the strength filter
(spec/20_memory.md R53 to R55; spec/30_encoding.md R70 to R75; spec/40_decoder.md R105 to R112). A frame is a list of
bytes in stream order, frame byte 0 first. -/

namespace Sys2Proof.Machine

open Sys2Proof

/-- R11, R54: a little-endian u16, the byte at the lower offset first. -/
def le16 (lo hi : Byte) : U16 := BitVec.ofNat 16 (lo.toNat + 256 * hi.toNat)

/-- Frame byte `k`. Every frame the decoder assembles has 9 bytes (R105); beyond a list's end this reads 0. -/
def byteAt (f : List Byte) (k : Nat) : Byte := f.getD k 0

/-- R105: the frame is the matched sync pair and then the body bytes with the checksum byte. -/
def frameOf (cfg : Config) (rest : List Byte) : List Byte := [cfg.sync0, cfg.sync1] ++ rest

/-- R106: the sum of frame bytes 0 to 7, reduced once mod 256 (90_conflicts.md C1). -/
def csum (f : List Byte) : Byte := BitVec.ofNat 8 ((f.take 8).map BitVec.toNat).sum

/-- R106, R107: does frame byte 8 hold the checksum? The decoder tests only this (R107). -/
def checksumOk (f : List Byte) : Bool := byteAt f 8 == csum f

/-- R103: a pair matches the sync word, byte by byte in stream order (R55). -/
def syncMatches (cfg : Config) (b0 b1 : Byte) : Bool := b0 == cfg.sync0 && b1 == cfg.sync1

/-- R107: frame validity. -/
def validFrame (cfg : Config) (f : List Byte) : Bool := syncMatches cfg (byteAt f 0) (byteAt f 1) && checksumOk f

/-- R72, R108. -/
def distanceOf (f : List Byte) : U16 := le16 (byteAt f 2) (byteAt f 3)

/-- R73, R108. -/
def strengthOf (f : List Byte) : U16 := le16 (byteAt f 4) (byteAt f 5)

/-- R74, R109. -/
def tempRawOf (f : List Byte) : U16 := le16 (byteAt f 6) (byteAt f 7)

/-- R110: `temp_raw − 2048` as 17-bit two's complement. -/
def tempQ3Of (raw : U16) : S17 := raw.setWidth 17 - 2048#17

/-- R109: the temperature in °C as an exact rational. R110: it is `temp_q3 / 8`, and the source's f64 holds exactly
this number (log entry 19). -/
def temperatureC (raw : U16) : Rat := (raw.toNat : Rat) / 8 - 256

/-- R112: the sample of a valid frame. -/
def sampleOf (f : List Byte) : Sample where
  distance := distanceOf f
  strength := strengthOf f
  tempRaw := tempRawOf f
  tempQ3 := tempQ3Of (tempRawOf f)

/-- R111: the strength filter, an unsigned compare; strength equal to the minimum passes. -/
def passesFilter (cfg : Config) (strength : U16) : Bool := decide (cfg.minStrength.toNat ≤ strength.toNat)

end Sys2Proof.Machine
end

