-- ==== Sys2Proof/Machine/Ops.lean ====
section
/-! DEFINITION. The operations the meanings share: a step's outputs, recovery (which stands in JFD where other machines
take an exception, spec/60_exceptions.md R186, R187), entering HALTED (R120), ACCEPT (spec/41_aggregator.md R142), frame
completion (spec/40_decoder.md R114), reset, and the admission of events. -/

namespace Sys2Proof.Machine

open Sys2Proof

/-- What a step of this machine answers. -/
abbrev Result := Host.Outcome State Fault Refusal

/-- `emit ev(e)` and nothing else put out (R13, R29). -/
def State.report (s : State) (e : EventCode) : State := { s with out := { Output.silent with ev := e } }

/-- `out.rd <- r` and nothing else put out (R147, R160). -/
def State.answer (s : State) (r : ReadWord) : State := { s with out := { Output.silent with rd := some r } }

/-- A step without an event (R220: "else no event, and the state is unchanged"; R222: the pulses go back to 0). -/
def idle (s : State) : State := s.report .none

/-- R186, R187, R182, R183: every recoverable error is handled in the step that finds it: back to PAIR0, with its event
code put out. -/
def resync (e : EventCode) (s : State) : State := { s with phase := .pair0 }.report e

/-- R102: the byte is held, not yet compared. -/
def holdByte (b : Byte) (s : State) : State := { s with h0 := b, phase := .pair1 }.report .none

/-- R103, match: BODY, with no body byte read. -/
def enterBody (s : State) : State := { s with phase := .body, body := [] }.report .none

/-- R104: the byte is stored whatever its value. -/
def pushBody (b : Byte) (s : State) : State := { s with body := s.body ++ [b] }.report .none

/-- R114, R117: the sync pair and every body byte are dropped. -/
def dropBody (s : State) : State := { s with body := [] }

/-- R119, R185: SerialIOError. The only error that does not go back to PAIR0. -/
def halt (s : State) : State := { s with phase := .halted, body := [] }.report .ioErr

/-- R142, R143: ACCEPT, insert the newest distance, evicting the oldest when the window is full. -/
def accept (d : U16) (s : State) : State :=
  { s with win := if s.win.length = s.cfg.n then s.win.drop 1 ++ [d] else s.win ++ [d] }

/-- R112, R114: a valid frame's sample is put out, with PASS or LOW. -/
def publish (x : Sample) (s : State) : State :=
  let pass := passesFilter s.cfg x.strength
  { s with
    smp := x
    out := { sample := some x, pass := pass, ev := if pass then .pass else .low, rd := none } }

/-- R111, R114, R148: a passing sample's distance is accepted where the aggregator is built. -/
def acceptIfPassing (x : Sample) (s : State) : State :=
  if passesFilter s.cfg x.strength && s.cfg.aggPresent then accept x.distance s else s

/-- R114: FRAME(rest), with `rest` the 7 bytes after the sync pair. -/
def completeFrame (rest : List Byte) (s : State) : State :=
  let f := frameOf s.cfg rest
  if checksumOk f then
    acceptIfPassing (sampleOf f) (publish (sampleOf f) (dropBody { s with phase := .pair0 }))
  else resync .csumErr (dropBody s)

/-- R162, R35: every element but the configuration and the refusal mark is set. -/
def resetState (s : State) : State :=
  { s with
    phase := .pair0
    h0 := 0x00
    body := []
    win := []
    smp := Sample.zero
    resetSeen := true
    out := Output.silent }

/-- R212: an event other than RST before the first RST is refused. -/
def afterReset (s : State) (r : Result) : Result := if s.resetSeen then r else .refused .beforeReset

/-- R214: a configuration with `N = 0` or `N > 15` is refused (log entry 8). -/
def underConfig (s : State) (r : Result) : Result := if s.cfg.wf then r else .refused .badConfig

/-- R214: elaboration: the reset state of a JFD configuration, and a refusal of anything else. -/
def elaborate (cfg : Config) : Result :=
  if cfg.wf then .next (State.resetWith cfg) else .refused .badConfig

/-- The next event word and the state without it (R80: one word per step); none when no event is pending. -/
def takeWord (s : State) : Option (EventWord × State) :=
  match s.pending with
  | [] => none
  | w :: rest => some (w, { s with pending := rest })

/-- One more event word presented, to be taken before those already pending. -/
def State.present (w : EventWord) (s : State) : State := { s with pending := w :: s.pending }

end Sys2Proof.Machine
end

