-- ==== Sys2Proof/Machine/Aggregator.lean ====
section
/-! DEFINITION. The reader's event RDAVG (spec/41_aggregator.md R147, R148). -/

namespace Sys2Proof.Machine

open Sys2Proof

/-- RDAVG, read the latest reading (R147; R148 without an aggregator; R212 before the first RST). -/
def execRdavg (s : State) : Result :=
  afterReset s (if s.cfg.aggPresent then .next (s.answer (.avg (avgWord s))) else .refused .aggregatorAbsent)

end Sys2Proof.Machine
end

