-- ==== Sys2Proof/Machine/Control.lean ====
section
/-! DEFINITION. The control events RDSTAT and RST (spec/42_control.md R160, R162). -/

namespace Sys2Proof.Machine

open Sys2Proof

/-- RDSTAT, read the status word (R160): in every phase, with or without the aggregator (R212 before the first RST). -/
def execRdstat (s : State) : Result := afterReset s (.next (s.answer (.status (statusWord s))))

/-- RST, reset (R162): legal in every state, before the first RST and in HALTED too. -/
def execRst (s : State) : Result := .next (resetState s)

end Sys2Proof.Machine
end

