-- ==== Sys2Proof/Machine/Decoder.lean ====
section
/-! DEFINITION. The serial source's events: RXB, TMO, IOERR (spec/40_decoder.md R100 to R121). -/

namespace Sys2Proof.Machine

open Sys2Proof

/-- RXB in each phase (R113). -/
def receiveByte (b : Byte) (s : State) : State :=
  match s.phase with
  | .pair0 => holdByte b s
  | .pair1 => if syncMatches s.cfg s.h0 b then enterBody s else resync .syncErr s
  | .body => if s.body.length < 6 then pushBody b s else completeFrame (s.body ++ [b]) s
  | .halted => idle s

/-- RXB, byte received (R113; R212 before the first RST). -/
def execRxb (b : Byte) (s : State) : Result := afterReset s (.next (receiveByte b s))

/-- TMO in each phase (R115): R118, R116, R117, R118. -/
def timeOut (s : State) : State :=
  match s.phase with
  | .pair0 => idle s
  | .pair1 => resync .syncErr s
  | .body => resync .short (dropBody s)
  | .halted => idle s

/-- TMO, read timeout (R115; R212). -/
def execTmo (s : State) : Result := afterReset s (.next (timeOut s))

/-- IOERR, stream unreadable or closed (R119; R212): once halted, it does nothing. -/
def execIoerr (s : State) : Result :=
  afterReset s (.next (if s.phase = .halted then idle s else halt s))

end Sys2Proof.Machine
end

