-- ==== Sys2Proof/Machine/Dispatch.lean ====
section
/-! DEFINITION. One arm per event (spec/30_encoding.md R81). -/

namespace Sys2Proof.Machine

open Sys2Proof

def exec (i : Instr) (s : State) : Host.Outcome State Fault Refusal :=
  match i with
  | .rxb b => Sys2Proof.Machine.execRxb b s
  | .tmo => Sys2Proof.Machine.execTmo s
  | .ioerr => Sys2Proof.Machine.execIoerr s
  | .rdavg => Sys2Proof.Machine.execRdavg s
  | .rdstat => Sys2Proof.Machine.execRdstat s
  | .rst => Sys2Proof.Machine.execRst s

end Sys2Proof.Machine
end

