-- ==== Sys2Proof/Machine/Step.lean ====
section
/-! DEFINITION. One step: the next pending event word is taken, decoded and run (spec/00_scope.md R14, R15). -/

namespace Sys2Proof.Machine

open Sys2Proof

/-- R14, R15: one step. A reserved word is refused (R84); with no event pending the machine idles (log entry 4). -/
def step (s : State) : Host.Outcome State Fault Refusal :=
  underConfig s <|
    match takeWord s with
    | none => .next (idle s)
    | some (w, s') =>
      match decode w with
      | .event i => exec i s'
      | .reserved w' => .refused (.reserved w')

/-- The event word in the low `nbits` bits of `w`, presented as the next event (log entry 3). -/
def State.withFetchWord (s : State) (nbits w : Nat) : State := s.present (tableWord nbits w)

end Sys2Proof.Machine
end

