-- ==== Sys2Proof/Machine/Assembler.lean ====
section
/-! DEFINITION. The assembler (spec/30_encoding.md R90 to R93): the expansion of its lines, and a reader of its text. A
text is a list of characters. -/

namespace Sys2Proof.Machine

open Sys2Proof

/-- R92: the low and high byte of a u16 (`v[7:0]`, `v[15:8]`). -/
def lowByte (v : U16) : Byte := v.extractLsb' 0 8

def highByte (v : U16) : Byte := v.extractLsb' 8 8

/-- R92: the frame without its checksum byte. -/
def frameHead (cfg : Config) (d s t : U16) : List Byte :=
  [cfg.sync0, cfg.sync1, lowByte d, highByte d, lowByte s, highByte s, lowByte t, highByte t]

/-- R92: the 9 bytes of rxf, with the computed checksum or the given one. -/
def rxfBytes (cfg : Config) (d s t : U16) (cs : Option Byte) : List Byte :=
  frameHead cfg d s t ++ [cs.getD (BitVec.ofNat 8 ((frameHead cfg d s t).map BitVec.toNat).sum)]

/-- R90 to R93: a line's events; the expansion of rxf depends on the configuration. -/
def expandLine (cfg : Config) : AsmLine → List Instr
  | .event i => [i]
  | .rxs bytes => bytes.map .rxb
  | .rxf d s t cs => (rxfBytes cfg d s t cs).map .rxb

/-- R93: the event word list of a program. -/
def assemble (cfg : Config) (lines : List AsmLine) : List EventWord :=
  (lines.flatMap (expandLine cfg)).map encode

/-- A hexadecimal digit's value. -/
def hexDigit (c : Char) : Option Nat :=
  if '0' ≤ c ∧ c ≤ '9' then some (c.toNat - '0'.toNat)
  else if 'a' ≤ c ∧ c ≤ 'f' then some (c.toNat - 'a'.toNat + 10)
  else if 'A' ≤ c ∧ c ≤ 'F' then some (c.toNat - 'A'.toNat + 10)
  else none

/-- The number a list of digits writes, most significant first; none where one is no digit of the base. -/
def digitsValue (base : Nat) (ds : List Char) : Option Nat :=
  ds.foldl
    (fun acc c => do
      let v ← acc
      let d ← hexDigit c
      if d < base then some (v * base + d) else none)
    (some 0)

/-- A decimal literal, or `0x` and hex digits; for a byte exactly two of them (R90: `0xHH`), for a u16 one to four (log
entry 14). -/
def parseNumber (bits : Nat) (cs : List Char) : Option Nat :=
  match cs with
  | [] => none
  | '0' :: 'x' :: ds =>
    if ds ≠ [] ∧ 4 * ds.length ≤ bits ∧ (bits = 8 → ds.length = 2) then digitsValue 16 ds else none
  | ds => (digitsValue 10 ds).bind fun v => if v < 2 ^ bits then some v else none

/-- R90: a byte, 0 to 255. -/
def parseByte (cs : List Char) : Option Byte := (parseNumber 8 cs).map (BitVec.ofNat 8)

/-- R92: a u16. -/
def parseU16 (cs : List Char) : Option U16 := (parseNumber 16 cs).map (BitVec.ofNat 16)

/-- Space, tab and carriage return separate the words of a line (log entry 14). -/
def isBlank (c : Char) : Bool := c == ' ' || c == '\t' || c == '\r'

/-- Cut a list of characters at every character that `p` picks. -/
def splitAt (p : Char → Bool) (cs : List Char) : List (List Char) :=
  cs.foldr
    (fun c acc =>
      if p c then [] :: acc
      else
        match acc with
        | [] => [[c]]
        | w :: ws => (c :: w) :: ws)
    [[]]

/-- R90: the words of a line, without the comment that a `;` starts. -/
def lineWords (cs : List Char) : List (List Char) :=
  (splitAt isBlank (cs.takeWhile (· ≠ ';'))).filter fun w => !w.isEmpty

/-- R92: `cs=c`. -/
def parseChecksumArg : List Char → Option Byte
  | 'c' :: 's' :: '=' :: v => parseByte v
  | _ => none

/-- R92: the operands of rxf. -/
def parseFrameArgs : List (List Char) → Option AsmLine
  | [d, s, t] => do some (.rxf (← parseU16 d) (← parseU16 s) (← parseU16 t) none)
  | [d, s, t, c] => do some (.rxf (← parseU16 d) (← parseU16 s) (← parseU16 t) (some (← parseChecksumArg c)))
  | _ => none

/-- R90 to R92: the words of one line; none where they are no line of the assembler. -/
def parseWords (ws : List (List Char)) : Option AsmLine :=
  match ws with
  | [] => none
  | m :: args =>
    if m = "rxs".toList then
      (args.mapM parseByte).bind fun bs => if (AsmLine.rxs bs).wf then some (.rxs bs) else none
    else if m = "rxf".toList then parseFrameArgs args
    else
      match args with
      | [b] => if m = "rxb".toList then (parseByte b).map fun v => .event (.rxb v) else none
      | [] =>
        if m = "tmo".toList then some (.event .tmo)
        else if m = "ioerr".toList then some (.event .ioerr)
        else if m = "rdavg".toList then some (.event .rdavg)
        else if m = "rdstat".toList then some (.event .rdstat)
        else if m = "rst".toList then some (.event .rst)
        else none
      | _ => none

/-- R90: a program's lines; a line without words holds no event; none where some line is no line of the assembler. -/
def parseProgram (text : List Char) : Option (List AsmLine) :=
  (((splitAt (· == '\n') text).map lineWords).filter fun ws => !ws.isEmpty).mapM parseWords

/-- R93: the event words of a program's text under a configuration. -/
def assembleText (cfg : Config) (text : List Char) : Option (List EventWord) :=
  (parseProgram text).map (assemble cfg)

end Sys2Proof.Machine
end

