-- ==== Sys2Proof/Machine/Clocked.lean ====
section
/-! DEFINITION. The ports (spec/10_state.md R34) and the clocked mapping (spec/70_reset_and_hazards.md R220 to R222). -/

namespace Sys2Proof.Machine

open Sys2Proof

/-- R34: the input ports, as sampled at one edge of `clk`. -/
structure PortsIn where
  rst : Bool
  rxValid : Bool
  rxData : Byte
  rxTimeout : Bool
  rxError : Bool
  deriving DecidableEq, Repr

/-- R34: the output ports. -/
structure PortsOut where
  smpValid : Bool
  smpDistance : U16
  smpStrength : U16
  smpTempRaw : U16
  smpTempQ3 : S17
  smpPass : Bool
  evCode : BitVec 3
  avgValid : Bool
  avgValue : U16
  status : BitVec 16
  deriving DecidableEq, Repr

/-- R220, R221: the event of an edge. The inputs that lose are dropped, not deferred. -/
def edgeEvent (p : PortsIn) : Option Instr :=
  if p.rst then some .rst
  else if p.rxError then some .ioerr
  else if p.rxValid then some (.rxb p.rxData)
  else if p.rxTimeout then some .tmo
  else none

/-- R220: one rising edge of `clk`. -/
def clockEdge (p : PortsIn) (s : State) : Result :=
  underConfig s <|
    match edgeEvent p with
    | some i => exec i s
    | none => .next (idle s)

/-- R220, R222, R30, R31: the registered outputs in the cycle after an edge. Before the first RST there is no value
(R212). -/
def portsOut (s : State) : Option PortsOut :=
  if s.resetSeen then
    some
      { smpValid := s.out.sample.isSome
        smpDistance := s.smp.distance
        smpStrength := s.smp.strength
        smpTempRaw := s.smp.tempRaw
        smpTempQ3 := s.smp.tempQ3
        smpPass := s.out.pass
        evCode := s.out.ev.code
        avgValid := avgValid s
        avgValue := avgValue s
        status := statusWord s }
  else none

end Sys2Proof.Machine
end

