-- ==== Sys2Proof/Machine/Agents.lean ====
section
/-! DEFINITION. The agents that drive JFD and the interleavings of their events (spec/60_exceptions.md R195 to R199;
spec/20_memory.md R64). -/

namespace Sys2Proof.Machine

open Sys2Proof

/-- R195: the agents. -/
inductive Agent where
  /-- the sensor and its front end -/
  | serialSource
  /-- the decoder and aggregator; it reacts and issues no event -/
  | jfd
  /-- the transport context; more than one reader may exist (R197) -/
  | reader
  | resetController
  deriving DecidableEq, Repr

/-- R195: which agent issues an event. -/
def agentOf : Instr → Agent
  | .rxb _ => .serialSource
  | .tmo => .serialSource
  | .ioerr => .serialSource
  | .rdavg => .reader
  | .rdstat => .reader
  | .rst => .resetController

/-- The events of one agent in a merged list, in order. -/
def eventsOf (a : Agent) (merged : List Instr) : List Instr := merged.filter fun i => agentOf i == a

/-- R64, R195: `merged` is an interleaving of the agents' lists: each agent's events stand in it in the order that agent
issued them, and no other event stands in it (log entry 11). -/
def interleaves (serial reader resets merged : List Instr) : Bool :=
  eventsOf .serialSource merged == serial && eventsOf .reader merged == reader
    && eventsOf .resetController merged == resets

end Sys2Proof.Machine
end

