-- ==== Sys2Proof/Machine/Run.lean ====
section
/-! DEFINITION. Runs of JFD: the spec's own `step(cfg, st, e)` (spec/00_scope.md R14), the sticky refusal mark (R16), a
run's observation (spec/70_reset_and_hazards.md R223), and runs over events instead of words. -/

namespace Sys2Proof.Machine

open Sys2Proof

/-- R14: `step(cfg, st, e)`, the event given as its word. R214: a configuration other than the run's own is refused,
whatever the event, RST among them (log entry 9). -/
def stepUnder (cfg : Config) (w : EventWord) (s : State) : Result :=
  if cfg = s.cfg then step (s.present w) else .refused .configChanged

/-- R16, R84: a refused event has no step: the state is unchanged and `refused` is set (log entry 6). -/
def afterStep (r : Result) (s : State) : State :=
  match r with
  | .next t => t
  | .refused _ => { s with refused := true }

/-- One event word offered under a configuration, the refusal mark kept in the state. -/
def offer (cfg : Config) (w : EventWord) (s : State) : State := afterStep (stepUnder cfg w s) s

/-- The outputs of the steps of a run, and its final state. -/
def runOffered : List (Config × EventWord) → State → List Output × State
  | [], s => ([], s)
  | (cfg, w) :: rest, s =>
    let t := offer cfg w s
    let r := runOffered rest t
    (t.out :: r.1, r.2)

/-- R223: the observation of a run. -/
structure Observation where
  outs : List Output
  final : State
  deriving DecidableEq, Repr

/-- R223, R16: a run's observation from a state; a refused run has none. -/
def observeFrom (s : State) (ws : List (Config × EventWord)) : Option Observation :=
  let r := runOffered ws s
  if r.2.refused then none else some ⟨r.1, r.2⟩

/-- R223: a run starts at the reset state of its configuration; R214: of a JFD configuration. -/
def observe (cfg : Config) (ws : List (Config × EventWord)) : Option Observation :=
  match elaborate cfg with
  | .next s => observeFrom s ws
  | .refused _ => none

/-- A run over events, stopping at the first refusal. -/
def runEvents : List Instr → State → Result
  | [], s => .next s
  | i :: is, s =>
    match exec i s with
    | .next t => runEvents is t
    | .refused r => .refused r

/-- The outputs and the final state of a run over events; none when an event is refused. -/
def runTrace : List Instr → State → Option (List Output × State)
  | [], s => some ([], s)
  | i :: is, s =>
    match exec i s with
    | .next t => (runTrace is t).map fun r => (t.out :: r.1, r.2)
    | .refused _ => none

end Sys2Proof.Machine
end

