-- ==== Sys2Proof/Safety.lean ====
section
/-! DEFINITION. The terms claims are stated in: the state invariants of spec/10_state.md R36, the error codes of
spec/60_exceptions.md R188, the distances a run accepts (spec/41_aggregator.md R141). -/

namespace Sys2Proof.Safety

open Sys2Proof Sys2Proof.Machine

/-- R36, invariants 1 to 4 (the fifth is about two states: HALTED is left only by RST). -/
abbrev StateInv (s : State) : Prop :=
  s.body.length ≤ 6 ∧ (s.phase ≠ .body → s.body = []) ∧ s.win.length ≤ s.cfg.n ∧
    (s.cfg.aggPresent = false → s.win = [])

/-- R188, R189: SYNCERR, SHORT, CSUMERR and IOERR are errors; LOW is not. -/
def isError : EventCode → Bool
  | .none => false
  | .pass => false
  | .low => false
  | .syncErr => true
  | .short => true
  | .csumErr => true
  | .ioErr => true

/-- R15: the events that are admitted in a state. -/
def admitted (i : Instr) (s : State) : Bool :=
  match i with
  | .rxb _ => s.resetSeen
  | .tmo => s.resetSeen
  | .ioerr => s.resetSeen
  | .rdavg => s.resetSeen && s.cfg.aggPresent
  | .rdstat => s.resetSeen
  | .rst => true

/-- The distance a step's output reports as passed. -/
def passedDistance (o : Output) : Option U16 := if o.pass then o.sample.map Sample.distance else none

/-- The distances a run's outputs report as passed, oldest first (R141). -/
def passedDistances (outs : List Output) : List U16 := outs.filterMap passedDistance

/-- R141: the last `n` elements of a list, or all of it where it is shorter. -/
def lastN {α : Type} (n : Nat) (xs : List α) : List α := xs.drop (xs.length - n)

/-- R34: the step put a sample out (`smp_valid = 1`). -/
def putsSample (o : Output) : Bool := o.sample.isSome

end Sys2Proof.Safety
end

