-- ==== Sys2Proof/Certificates/Slice0/Obligations.lean ====
section
/-! DEFINITION. The statements for the provers, each formalising numbered rules of spec/. `Output.silent` is the output
of a step that reports nothing: no sample, pass false, event NONE, no read word. -/

open Sys2Proof Sys2Proof.Machine Sys2Proof.Safety

/-! ## Encoding -/

/-- Words written out from spec/30_encoding.md R82 to R84 and the decoding table of spec/95_test_vectors.md 2.6. -/
def Obligations.WordsDecodeAsTheSpecWritesThem : Prop :=
  decode 0x000 = .event (.rxb 0x00) ∧ decode 0x0FF = .event (.rxb 0xFF) ∧ decode 0x059 = .event (.rxb 0x59) ∧
    decode 0x100 = .event .tmo ∧ decode 0x200 = .event .ioerr ∧ decode 0x300 = .event .rdavg ∧
    decode 0x400 = .event .rdstat ∧ decode 0x500 = .event .rst ∧
    decode 0x501 = .reserved 0x501 ∧ decode 0x1FF = .reserved 0x1FF ∧ decode 0x600 = .reserved 0x600 ∧
    decode 0xFFF = .reserved 0xFFF

/-- Decode and encode agree on every event with every operand, and a word decodes to an event only if it is that event's
word (R82, R83, R86). -/
def Obligations.DecodeEncodeRoundTrip : Prop :=
  (∀ i : Instr, i.wf = true → decode (encode i) = .event i) ∧
    ∀ (w : EventWord) (i : Instr), decode w = .event i → encode i = w

/-- A word decodes to an event iff it is of a row of spec/opcode_table.json, and then it is of that event's row. -/
def Obligations.DecodeFollowsTheOpcodeTable : Prop :=
  ∀ w : EventWord,
    ((∃ i, decode w = .event i) ↔ ∃ r ∈ opcodeTable, w &&& r.mask = r.pattern) ∧
    ∀ i, decode w = .event i → rowOf i ∈ opcodeTable ∧ w &&& (rowOf i).mask = (rowOf i).pattern

/-- R84: which words are reserved or illegal, and that such a word has no step: it is refused, the state is unchanged
and `refused` is set. -/
def Obligations.ReservedWordsAreRefused : Prop :=
  ∀ (w : EventWord) (s : State), s.cfg.wf = true →
    ((0x6 ≤ (w.extractLsb' 8 4).toNat ∨ (0x1 ≤ (w.extractLsb' 8 4).toNat ∧ w.extractLsb' 0 8 ≠ 0#8)) ↔
      decode w = .reserved w) ∧
    (decode w = .reserved w →
      stepUnder s.cfg w s = .refused (.reserved w) ∧ offer s.cfg w s = { s with refused := true })

/-! ## The step -/

/-- A step takes the next pending word; when it decodes to an event, the step is exec of that event at the state without
that word (R14; that the words are held in `pending` is the model's choice, log entry 3). -/
def Obligations.StepRunsTheDecodedEvent : Prop :=
  ∀ (s : State) (w : EventWord) (rest : List EventWord) (i : Instr),
    s.cfg.wf = true → s.pending = w :: rest → decode w = .event i →
      step s = exec i { s with pending := rest }

/-- A table word presented to the machine is run by the very next step (log entries 3 and 13). -/
def Obligations.PresentedWordIsRunNext : Prop :=
  ∀ (s : State) (nbits w : Nat) (i : Instr),
    s.cfg.wf = true → decodeTableWord nbits w = some i → step (s.withFetchWord nbits w) = exec i s

/-- With no event pending the machine idles: the state is unchanged but for the outputs, which report nothing. The
model's choice (log entry 4), after R220 ("else no event, and the state is unchanged") and R222. -/
def Obligations.NoPendingEventIdles : Prop :=
  ∀ s : State, s.cfg.wf = true → s.pending = [] → step s = .next { s with out := Output.silent }

/-- R214: `N = 0` or `N > 15` is no JFD configuration and is refused at elaboration, where a JFD configuration gives its
reset state; and a run that changes the configuration is refused, whatever the event. That an RST under another
configuration is refused too is read from R214 by inference (log entry 9). -/
def Obligations.BadOrChangedConfigurationIsRefused : Prop :=
  (∀ cfg : Config, (cfg.n = 0 ∨ 15 < cfg.n) → elaborate cfg = .refused .badConfig) ∧
    (∀ cfg : Config, 1 ≤ cfg.n → cfg.n ≤ 15 → elaborate cfg = .next (State.resetWith cfg)) ∧
    ∀ (cfg : Config) (w : EventWord) (s : State), cfg ≠ s.cfg →
      stepUnder cfg w s = .refused .configChanged ∧ offer cfg w s = { s with refused := true }

/-- The model's choice (log entry 8): a state whose configuration is no JFD configuration is refused by every step and
every clock edge too, not at elaboration alone. -/
def Obligations.BadConfigurationNeverSteps : Prop :=
  ∀ s : State, (s.cfg.n = 0 ∨ 15 < s.cfg.n) →
    step s = .refused .badConfig ∧ ∀ p : PortsIn, clockEdge p s = .refused .badConfig

/-- R15: a step is refused for exactly four causes, and it never faults. Which of two causes is named where both apply is
the model's choice (log entry 7). -/
def Obligations.StepsAreRefusedForExactlyFourCauses : Prop :=
  ∀ (cfg : Config) (w : EventWord) (s : State), s.cfg.wf = true →
    (∀ f, stepUnder cfg w s ≠ .fault f) ∧
    ∀ r, stepUnder cfg w s = .refused r ↔
      (cfg ≠ s.cfg ∧ r = .configChanged) ∨
      (cfg = s.cfg ∧ decode w = .reserved w ∧ r = .reserved w) ∨
      (cfg = s.cfg ∧ s.resetSeen = false ∧ (∃ i, decode w = .event i ∧ i ≠ .rst) ∧ r = .beforeReset) ∨
      (cfg = s.cfg ∧ s.resetSeen = true ∧ decode w = .event .rdavg ∧ s.cfg.aggPresent = false ∧
        r = .aggregatorAbsent)

/-- R15: every admitted event has a next state in every state, and no other event has one. -/
def Obligations.ExactlyTheAdmittedEventsComplete : Prop :=
  ∀ (i : Instr) (s : State), admitted i s = true ↔ ∃ t, exec i s = .next t

/-- R212: before the first RST every event other than RST is refused. -/
def Obligations.EventsBeforeTheFirstResetAreRefused : Prop :=
  ∀ (i : Instr) (s : State), s.resetSeen = false → i ≠ .rst → exec i s = .refused .beforeReset

/-! ## RST -/

/-- R162, R35: RST completes in every state, sets every element, leaves the configuration and the refusal mark, and
STATUS and the latest reading then read 0. -/
def Obligations.RstSetsEveryElement : Prop :=
  ∀ s : State, ∃ t,
    exec .rst s = .next t ∧
    t = { cfg := s.cfg, phase := .pair0, h0 := 0x00, body := [], win := [],
          smp := { distance := 0, strength := 0, tempRaw := 0, tempQ3 := 0 },
          refused := s.refused, resetSeen := true, pending := s.pending,
          out := { sample := none, pass := false, ev := .none, rd := none } } ∧
    statusWord t = 0x0000 ∧ avgValid t = false ∧ avgValue t = 0x0000

/-- R210, R63: nothing of the state before RST survives it, and two RSTs leave the same state as one. -/
def Obligations.RstForgetsThePast : Prop :=
  (∀ s s' : State, s.cfg = s'.cfg → s.refused = s'.refused → s.pending = s'.pending →
    exec .rst s = exec .rst s') ∧
    ∀ s t : State, exec .rst s = .next t → exec .rst t = .next t

/-! ## RXB -/

/-- R102: in PAIR0 the byte is held, nothing is put out. -/
def Obligations.RxbInPair0HoldsTheByte : Prop :=
  ∀ (b : Byte) (s : State), s.resetSeen = true → s.phase = .pair0 →
    exec (.rxb b) s = .next { s with h0 := b, phase := .pair1, out := Output.silent }

/-- R103: in PAIR1 both bytes are compared with the sync word; a match enters BODY, anything else drops the pair with
SYNCERR. -/
def Obligations.RxbInPair1ComparesThePair : Prop :=
  ∀ (b : Byte) (s : State), s.resetSeen = true → s.phase = .pair1 →
    (s.h0 = s.cfg.sync0 ∧ b = s.cfg.sync1 →
      exec (.rxb b) s = .next { s with phase := .body, body := [], out := Output.silent }) ∧
    (¬(s.h0 = s.cfg.sync0 ∧ b = s.cfg.sync1) →
      exec (.rxb b) s = .next { s with phase := .pair0, out := { Output.silent with ev := .syncErr } })

/-- R104: with fewer than 6 body bytes the byte is stored, whatever its value. -/
def Obligations.RxbInBodyStoresTheByte : Prop :=
  ∀ (b : Byte) (s : State), s.resetSeen = true → s.phase = .body → s.body.length < 6 →
    exec (.rxb b) s = .next { s with body := s.body ++ [b], out := Output.silent }

/-- R114 with R105, R106, R108, R110, R111, R112 and R142 written out: the 7th body byte completes the frame. The
checksum is the sum of frame bytes 0 to 7 mod 256; a bad one drops the frame with CSUMERR; a good one puts the sample
out, with PASS or LOW, and a passing distance enters the window where the aggregator is built. -/
def Obligations.SeventhBodyByteCompletesTheFrame : Prop :=
  ∀ (s : State) (b2 b3 b4 b5 b6 b7 b8 : Byte),
    s.resetSeen = true → s.phase = .body → s.body = [b2, b3, b4, b5, b6, b7] →
    let sum := s.cfg.sync0.toNat + s.cfg.sync1.toNat + b2.toNat + b3.toNat + b4.toNat + b5.toNat + b6.toNat + b7.toNat
    let strength := b4.toNat + 256 * b5.toNat
    let x : Sample :=
      { distance := BitVec.ofNat 16 (b2.toNat + 256 * b3.toNat)
        strength := BitVec.ofNat 16 strength
        tempRaw := BitVec.ofNat 16 (b6.toNat + 256 * b7.toNat)
        tempQ3 := BitVec.ofInt 17 ((b6.toNat + 256 * b7.toNat : Nat) - 2048 : Int) }
    (b8.toNat ≠ sum % 256 →
      exec (.rxb b8) s =
        .next { s with phase := .pair0, body := [], out := { Output.silent with ev := .csumErr } }) ∧
    (b8.toNat = sum % 256 → strength < s.cfg.minStrength.toNat →
      exec (.rxb b8) s =
        .next { s with
          phase := .pair0, body := [], smp := x
          out := { sample := some x, pass := false, ev := .low, rd := none } }) ∧
    (b8.toNat = sum % 256 → s.cfg.minStrength.toNat ≤ strength →
      exec (.rxb b8) s =
        .next { s with
          phase := .pair0, body := [], smp := x
          win :=
            if s.cfg.aggPresent = true then
              if s.win.length = s.cfg.n then s.win.drop 1 ++ [x.distance] else s.win ++ [x.distance]
            else s.win
          out := { sample := some x, pass := true, ev := .pass, rd := none } })

/-- R113: what RXB leaves unchanged. The configuration, the refusal mark, `reset_seen` and the pending words always;
`h0` but in PAIR0; `smp` but where a sample is put out, and then it is that sample; the window but where a sample
passes and the aggregator is built. No read word is put out. -/
def Obligations.RxbFrame : Prop :=
  ∀ (b : Byte) (s t : State), exec (.rxb b) s = .next t →
    t.cfg = s.cfg ∧ t.refused = s.refused ∧ t.resetSeen = s.resetSeen ∧ t.pending = s.pending ∧
    t.out.rd = none ∧
    (s.phase ≠ .pair0 → t.h0 = s.h0) ∧
    (t.out.sample = none → t.smp = s.smp ∧ t.out.pass = false) ∧
    (∀ x, t.out.sample = some x → t.smp = x) ∧
    (t.out.pass = false ∨ s.cfg.aggPresent = false → t.win = s.win) ∧
    (s.phase ≠ .pair1 → s.phase ≠ .body → t.body = s.body)

/-! ## TMO and IOERR -/

/-- R115 (with R116, R117, R118): TMO in each phase. -/
def Obligations.TmoInEachPhase : Prop :=
  ∀ s : State, s.resetSeen = true →
    (s.phase = .pair0 → exec .tmo s = .next { s with out := Output.silent }) ∧
    (s.phase = .pair1 →
      exec .tmo s = .next { s with phase := .pair0, out := { Output.silent with ev := .syncErr } }) ∧
    (s.phase = .body →
      exec .tmo s = .next { s with phase := .pair0, body := [], out := { Output.silent with ev := .short } }) ∧
    (s.phase = .halted → exec .tmo s = .next { s with out := Output.silent })

/-- R119: IOERR enters HALTED, dropping a partial frame; in HALTED it does nothing. -/
def Obligations.IoerrHaltsOnce : Prop :=
  ∀ s : State, s.resetSeen = true →
    (s.phase ≠ .halted →
      exec .ioerr s = .next { s with phase := .halted, body := [], out := { Output.silent with ev := .ioErr } }) ∧
    (s.phase = .halted → exec .ioerr s = .next { s with out := Output.silent })

/-- R115, R119, R188: TMO and IOERR leave everything but the phase, the body and the outputs, and put no sample and no
read word out. -/
def Obligations.TmoAndIoerrFrame : Prop :=
  ∀ (i : Instr) (s t : State), i = .tmo ∨ i = .ioerr → exec i s = .next t →
    t = { s with phase := t.phase, body := t.body, out := { Output.silent with ev := t.out.ev } } ∧
    (t.body = s.body ∨ t.body = [])

/-- R120, R121, R192: in HALTED the serial source's events change nothing and report nothing, the reads work as in every
other phase, and RST alone leaves HALTED. -/
def Obligations.HaltedIsTerminalUntilRst : Prop :=
  ∀ s : State, s.resetSeen = true → s.phase = .halted →
    (∀ b, exec (.rxb b) s = .next { s with out := Output.silent }) ∧
    exec .tmo s = .next { s with out := Output.silent } ∧
    exec .ioerr s = .next { s with out := Output.silent } ∧
    (s.cfg.aggPresent = true →
      exec .rdavg s = .next { s with out := { Output.silent with rd := some (.avg (avgWord s)) } }) ∧
    (s.cfg.aggPresent = false → exec .rdavg s = .refused .aggregatorAbsent) ∧
    exec .rdstat s = .next { s with out := { Output.silent with rd := some (.status (statusWord s)) } } ∧
    ∀ i t, exec i s = .next t → (t.phase ≠ .halted ↔ i = .rst)

/-! ## The reads -/

/-- R147, R148, R88: RDAVG returns `{1, sum div len}`, or 0x00000 for an empty window, and writes nothing; without an
aggregator it is refused. -/
def Obligations.RdavgReturnsTheTruncatedMean : Prop :=
  ∀ s : State, s.resetSeen = true →
    (s.cfg.aggPresent = true → s.win = [] →
      exec .rdavg s = .next { s with out := { Output.silent with rd := some (.avg 0x00000#17) } }) ∧
    (s.cfg.aggPresent = true → s.win ≠ [] →
      exec .rdavg s =
        .next { s with
          out :=
            { Output.silent with
              rd := some (.avg (BitVec.ofNat 17 (0x10000 + (s.win.map BitVec.toNat).sum / s.win.length))) } }) ∧
    (s.cfg.aggPresent = false → exec .rdavg s = .refused .aggregatorAbsent)

/-- R160, R31: RDSTAT returns the STATUS word, each field at its place and the reserved bits 0, and writes nothing; in
every state that keeps the invariant, under a JFD configuration. -/
def Obligations.RdstatReturnsTheStatusFields : Prop :=
  ∀ s : State, s.resetSeen = true → StateInv s → s.cfg.wf = true →
    ∃ w : BitVec 16,
      exec .rdstat s = .next { s with out := { Output.silent with rd := some (.status w) } } ∧
      w.extractLsb' 0 1 = (if s.phase = .halted then 1#1 else 0#1) ∧
      w.extractLsb' 1 1 = (if s.win = [] then 0#1 else 1#1) ∧
      w.extractLsb' 2 2 =
        (match s.phase with
        | .pair0 => 0#2
        | .pair1 => 1#2
        | .body => 2#2
        | .halted => 3#2) ∧
      (w.extractLsb' 4 3).toNat = (if s.phase = .body then s.body.length else 0) ∧
      w.extractLsb' 7 1 = 0#1 ∧
      (w.extractLsb' 8 4).toNat = s.win.length ∧
      w.extractLsb' 12 4 = 0#4

/-- R32: the identities between STATUS fields, and with the `avg_valid` output. -/
def Obligations.StatusFieldIdentities : Prop :=
  ∀ s : State, StateInv s → s.cfg.wf = true →
    ((statusWord s).extractLsb' 0 1 = 1#1 ↔ (statusWord s).extractLsb' 2 2 = 3#2) ∧
    ((statusWord s).extractLsb' 1 1 = 1#1 ↔ 1 ≤ ((statusWord s).extractLsb' 8 4).toNat) ∧
    ((statusWord s).extractLsb' 1 1 = 1#1 ↔ avgValid s = true) ∧
    ((statusWord s).extractLsb' 4 3 ≠ 0#3 → (statusWord s).extractLsb' 2 2 = 2#2)

/-- R62: a read changes no state and reports no event, so reading twice in a row answers the same word twice. -/
def Obligations.ReadsChangeNothing : Prop :=
  ∀ (i : Instr) (s t : State), i = .rdavg ∨ i = .rdstat → exec i s = .next t →
    (∃ r, t = { s with out := { Output.silent with rd := some r } }) ∧ exec i t = .next t

/-! ## The aggregator -/

/-- R145: the truncation law. -/
def Obligations.MeanTruncationLaw : Prop :=
  ∀ win : List U16, win ≠ [] →
    ∃ m, latest win = some m ∧ win.length * m.toNat ≤ (win.map BitVec.toNat).sum ∧
      (win.map BitVec.toNat).sum < win.length * (m.toNat + 1)

/-- R146: the mean lies between the least and the greatest element, and a window of equal values has that mean. -/
def Obligations.MeanLiesBetweenLeastAndGreatest : Prop :=
  ∀ (win : List U16) (m : U16), latest win = some m →
    (∃ d ∈ win, d.toNat ≤ m.toNat) ∧ (∃ d ∈ win, m.toNat ≤ d.toNat) ∧ ∀ v, (∀ d ∈ win, d = v) → m = v

/-- R8, R144: the window sum of a legal window fits in 20 bits, in 19 bits for a capacity of 5. -/
def Obligations.WindowSumFitsItsWidth : Prop :=
  ∀ (cfg : Config) (win : List U16), cfg.wf = true → win.length ≤ cfg.n →
    winSum win ≤ cfg.n * 65535 ∧ winSum win < 2 ^ 20 ∧ (cfg.n = 5 → winSum win < 2 ^ 19)

/-- R143, R142: the window changes only by RST, which empties it, and by an insertion at the new end, which evicts exactly
the oldest element when, and only when, the window is full. -/
def Obligations.WindowGrowsAtTheNewEndOnly : Prop :=
  ∀ (i : Instr) (s t : State), exec i s = .next t →
    (i = .rst ∧ t.win = []) ∨ t.win = s.win ∨
      ∃ d, (s.win.length = s.cfg.n ∧ t.win = s.win.drop 1 ++ [d]) ∨ (s.win.length ≠ s.cfg.n ∧ t.win = s.win ++ [d])

/-- R141: over any run of events without RST, the window holds the last N of what it held and what passed since, in
acceptance order. -/
def Obligations.WindowHoldsTheLastAcceptedDistances : Prop :=
  ∀ (is : List Instr) (s t : State) (outs : List Output),
    s.cfg.wf = true → s.cfg.aggPresent = true → s.win.length ≤ s.cfg.n → Instr.rst ∉ is →
    runTrace is s = some (outs, t) →
      t.win = lastN s.cfg.n (s.win ++ passedDistances outs)

/-- R149: after an RST, the latest reading is unavailable iff nothing has been accepted since: no sample passed, or there
is no aggregator to accept it (R148). -/
def Obligations.UnavailableIffNothingAcceptedSinceRst : Prop :=
  ∀ (is : List Instr) (s0 s t : State) (outs : List Output),
    s0.cfg.wf = true → exec .rst s0 = .next s → Instr.rst ∉ is → runTrace is s = some (outs, t) →
      (latest t.win = none ↔ passedDistances outs = [] ∨ s0.cfg.aggPresent = false)

/-! ## The frame -/

/-- R54: the three fields are little-endian. -/
def Obligations.FrameFieldsAreLittleEndian : Prop :=
  ∀ b0 b1 b2 b3 b4 b5 b6 b7 b8 : Byte,
    (distanceOf [b0, b1, b2, b3, b4, b5, b6, b7, b8]).toNat = b2.toNat + 256 * b3.toNat ∧
    (strengthOf [b0, b1, b2, b3, b4, b5, b6, b7, b8]).toNat = b4.toNat + 256 * b5.toNat ∧
    (tempRawOf [b0, b1, b2, b3, b4, b5, b6, b7, b8]).toNat = b6.toNat + 256 * b7.toNat

/-- R109, R110: `temp_q3` is the exact 17-bit two's-complement value `temp_raw − 2048`, in its range, and the temperature
is `temp_raw / 8 − 256 = temp_q3 / 8` exactly. -/
def Obligations.TemperatureIsExactFixedPoint : Prop :=
  ∀ raw : U16,
    (tempQ3Of raw).toInt = (raw.toNat : Int) - 2048 ∧
    -2048 ≤ (tempQ3Of raw).toInt ∧ (tempQ3Of raw).toInt ≤ 63487 ∧
    temperatureC raw = (raw.toNat : Rat) / 8 - 256 ∧
    temperatureC raw = ((tempQ3Of raw).toInt : Rat) / 8

/-- R124: changing exactly one byte of a valid frame makes it invalid. -/
def Obligations.OneChangedByteInvalidatesAFrame : Prop :=
  ∀ (cfg : Config) (f : List Byte) (k : Nat) (b : Byte),
    f.length = 9 → k < 9 → validFrame cfg f = true → b ≠ byteAt f k → validFrame cfg (f.set k b) = false

/-- R125: reducing mod 256 after each addition gives the same checksum as reducing the exact sum once. -/
def Obligations.ChecksumMayBeReducedAtEachAddition : Prop :=
  ∀ f : List Byte,
    csum f = (f.take 8).foldl (fun acc b => acc + b) 0#8 ∧ (((f.take 8).map BitVec.toNat).sum ≤ 2040)

/-- R123: any 9 bytes fed from PAIR0 put a sample out iff they are a valid frame; where the first pair is not the sync
word, the decoder ends in BODY if one of the pairs (2,3), (4,5), (6,7) matches, and else in PAIR1 holding byte 8. -/
def Obligations.NineBytesYieldASampleIffValid : Prop :=
  ∀ (s : State) (f : List Byte), s.resetSeen = true → s.phase = .pair0 → f.length = 9 →
    ∃ outs t,
      runTrace (f.map Instr.rxb) s = some (outs, t) ∧
      ((∃ o ∈ outs, o.sample.isSome = true) ↔ validFrame s.cfg f = true) ∧
      (syncMatches s.cfg (byteAt f 0) (byteAt f 1) = false →
        if syncMatches s.cfg (byteAt f 2) (byteAt f 3) || syncMatches s.cfg (byteAt f 4) (byteAt f 5)
            || syncMatches s.cfg (byteAt f 6) (byteAt f 7) then
          t.phase = .body
        else t.phase = .pair1 ∧ t.h0 = byteAt f 8)

/-- R112, R114, R126 (last-but-one row): a valid frame fed from PAIR0 ends in PAIR0 with its sample in `smp`, put out by
the last step alone, with PASS or LOW, and with its distance accepted iff it passes and the aggregator is built. -/
def Obligations.ValidFrameIsDelivered : Prop :=
  ∀ (s : State) (f : List Byte),
    s.resetSeen = true → s.phase = .pair0 → f.length = 9 → validFrame s.cfg f = true →
    ∃ last t,
      runTrace (f.map Instr.rxb) s = some (List.replicate 8 Output.silent ++ [last], t) ∧
      last =
        { sample := some (sampleOf f), pass := passesFilter s.cfg (strengthOf f)
          ev := if passesFilter s.cfg (strengthOf f) then .pass else .low, rd := none } ∧
      t = { s with
            phase := .pair0, h0 := byteAt f 0, body := [], smp := sampleOf f, out := last
            win :=
              if passesFilter s.cfg (strengthOf f) && s.cfg.aggPresent then (accept (distanceOf f) s).win
              else s.win }

/-- R117, R126 (third row): from PAIR0, the sync word, at most 6 more bytes and then a timeout put SHORT out, drop the
partial frame, and leave the decoder in PAIR0 with `smp` and the window as they were. -/
def Obligations.ShortReadDropsThePartialFrame : Prop :=
  ∀ (s : State) (bs : List Byte), s.resetSeen = true → s.phase = .pair0 → bs.length ≤ 6 →
    ∃ outs,
      runTrace (.rxb s.cfg.sync0 :: .rxb s.cfg.sync1 :: (bs.map Instr.rxb ++ [.tmo])) s =
        some (outs,
          { s with phase := .pair0, h0 := s.cfg.sync0, body := [], out := { Output.silent with ev := .short } })

/-- R101, R57, R59: the scan takes non-overlapping pairs: any number of pairs, none of them the sync word, leaves the
decoder in PAIR0, with `smp`, the window and the body as they were, whatever stands across the pairs. -/
def Obligations.MismatchedPairsAreDroppedWhole : Prop :=
  ∀ (pairs : List (Byte × Byte)) (s : State), s.resetSeen = true → s.phase = .pair0 →
    (∀ p ∈ pairs, syncMatches s.cfg p.1 p.2 = false) →
    ∃ outs t,
      runTrace (pairs.flatMap fun p => [Instr.rxb p.1, Instr.rxb p.2]) s = some (outs, t) ∧
      t = { s with h0 := t.h0, out := t.out } ∧
      outs = pairs.flatMap fun _ => [Output.silent, { Output.silent with ev := .syncErr }]

/-- R92: rxf expands to nine RXB events that are a valid frame with its three operands as fields; with `cs=c` the last
byte is `c`. -/
def Obligations.RxfExpandsToAValidFrame : Prop :=
  ∀ (cfg : Config) (d s t : U16),
    (∃ f, expandLine cfg (.rxf d s t none) = f.map Instr.rxb ∧ f.length = 9 ∧ validFrame cfg f = true ∧
      distanceOf f = d ∧ strengthOf f = s ∧ tempRawOf f = t) ∧
    ∀ c, ∃ f, expandLine cfg (.rxf d s t (some c)) = f.map Instr.rxb ∧ f.length = 9 ∧
      syncMatches cfg (byteAt f 0) (byteAt f 1) = true ∧ byteAt f 8 = c ∧
      distanceOf f = d ∧ strengthOf f = s ∧ tempRawOf f = t

/-! ## Rules about the whole machine -/

/-- R188: an error leaves the window, so also the latest reading, and `smp` as they were. -/
def Obligations.ErrorsNeverReachTheAggregator : Prop :=
  ∀ (i : Instr) (s t : State), exec i s = .next t → isError t.out.ev = true →
    t.win = s.win ∧ t.smp = s.smp ∧ latest t.win = latest s.win

/-- R182: SYNCERR is put out by exactly two cases, and the phase becomes PAIR0. -/
def Obligations.SyncerrIsRaisedByExactlyTwoCases : Prop :=
  ∀ (i : Instr) (s t : State), exec i s = .next t →
    (t.out.ev = .syncErr ↔
      s.phase = .pair1 ∧ (i = .tmo ∨ ∃ b, i = .rxb b ∧ ¬(s.h0 = s.cfg.sync0 ∧ b = s.cfg.sync1))) ∧
    (t.out.ev = .syncErr → t.phase = .pair0)

/-- R183, R184, R185: SHORT only by TMO in BODY, CSUMERR only by the RXB that completes a frame with a wrong checksum,
IOERR only by an IOERR event outside HALTED, which stays halted until RST. -/
def Obligations.OtherErrorsAreRaisedByTheirOneCause : Prop :=
  ∀ (i : Instr) (s t : State), exec i s = .next t →
    (t.out.ev = .short → i = .tmo ∧ s.phase = .body ∧ t.phase = .pair0 ∧ t.body = []) ∧
    (t.out.ev = .csumErr →
      (∃ b, i = .rxb b ∧ s.phase = .body ∧ 6 ≤ s.body.length ∧
        byteAt (frameOf s.cfg (s.body ++ [b])) 8 ≠ csum (frameOf s.cfg (s.body ++ [b]))) ∧
      t.phase = .pair0 ∧ t.body = []) ∧
    (t.out.ev = .ioErr →
      i = .ioerr ∧ s.phase ≠ .halted ∧ t.phase = .halted ∧
        ∀ (is : List Instr) (outs : List Output) (u : State),
          Instr.rst ∉ is → runTrace is t = some (outs, u) → u.phase = .halted)

/-- R187: after SYNCERR, SHORT or CSUMERR the decoder is as after RST apart from `win` and `smp`, in every state that
keeps the invariant (and apart from `h0`, which no rule reads in PAIR0 by R22 and which the model leaves as it was, log entry 16, and the
step's outputs). -/
def Obligations.RecoveryIsResynchronization : Prop :=
  ∀ (i : Instr) (s t : State), StateInv s → exec i s = .next t →
    t.out.ev = .syncErr ∨ t.out.ev = .short ∨ t.out.ev = .csumErr →
      exec .rst t = .next { t with h0 := 0x00, win := [], smp := Sample.zero, out := Output.silent }

/-- R181, R189, R111: PASS and LOW report a sample, PASS one at or above the minimum strength and LOW one below it, and
LOW leaves the window; `pass` is put out with PASS alone, and no other event comes with a sample. -/
def Obligations.SampleComesWithPassOrLow : Prop :=
  ∀ (i : Instr) (s t : State), exec i s = .next t →
    (t.out.ev = .pass ↔ t.out.pass = true) ∧
    (t.out.ev = .pass ∨ t.out.ev = .low ↔ t.out.sample = some t.smp) ∧
    (t.out.ev = .pass → s.cfg.minStrength.toNat ≤ t.smp.strength.toNat) ∧
    (t.out.ev = .low → t.smp.strength.toNat < s.cfg.minStrength.toNat ∧ t.win = s.win) ∧
    (¬(t.out.ev = .pass ∨ t.out.ev = .low) → t.out.sample = none)

/-- No event changes the configuration (R33) or the refusal mark (R16); the window and `smp` are written by RST (R162) and
by the RXB that completes a frame alone (R24, R201 and R28, R112). -/
def Obligations.OnlyRxbAndRstWriteTheWindow : Prop :=
  ∀ (i : Instr) (s t : State), exec i s = .next t →
    t.cfg = s.cfg ∧ t.refused = s.refused ∧
    (t.win ≠ s.win ∨ t.smp ≠ s.smp → i = .rst ∨ (∃ b, i = .rxb b) ∧ s.phase = .body ∧ t.out.sample.isSome = true)

/-- R222: the step after one that puts a sample out puts none out. -/
def Obligations.NoTwoSamplesInARow : Prop :=
  ∀ (i j : Instr) (s t u : State), exec i s = .next t → exec j t = .next u →
    t.out.sample.isSome = true → u.out.sample = none

/-- R16: a refusal sets the refusal mark, and the mark stays for the rest of the run, so that a refused run has no
observation (R223). -/
def Obligations.RefusalSetsAMarkThatStays : Prop :=
  (∀ (cfg : Config) (w : EventWord) (s : State) (r : Refusal),
    stepUnder cfg w s = .refused r → (offer cfg w s).refused = true) ∧
    ∀ (ws : List (Config × EventWord)) (s : State), s.refused = true →
      (runOffered ws s).2.refused = true ∧ observeFrom s ws = none

/-- R36: every step keeps the invariants 1 to 4, and (invariant 5) leaves HALTED only by an RST word. That a step takes
the next word of `pending` and idles without one is the model's choice (log entries 3 and 4). -/
def Obligations.StepKeepsTheInvariant : Prop :=
  ∀ s t : State, StateInv s → step s = .next t →
    StateInv t ∧
      (s.phase = .halted → t.phase ≠ .halted →
        ∃ w rest, s.pending = w :: rest ∧ decode w = .event .rst)

/-- R36: the invariant holds after reset, under every configuration, and the default configuration is a JFD one. -/
def Obligations.ResetHasTheInvariant : Prop :=
  (∀ cfg : Config, StateInv (State.resetWith cfg)) ∧ StateInv State.reset ∧ State.reset.cfg.wf = true

/-- R62, R197, R201: reads never disturb the decoder: a run of events and the same run without its reads end in the same
state but for the last output, and accept the same distances. -/
def Obligations.ReadersNeverDisturbTheDecoder : Prop :=
  ∀ (is : List Instr) (s t : State) (outs : List Output), runTrace is s = some (outs, t) →
    ∃ outs' t',
      runTrace (is.filter fun i => agentOf i != .reader) s = some (outs', t') ∧
      t = { t' with out := t.out } ∧ passedDistances outs' = passedDistances outs

/-- R195, R64, R197: whatever the interleaving of the serial source's events with the readers', the decoder ends in the
state it reaches on the serial source's events alone, but for the last output (an interleaving is a merged list, log
entry 11). -/
def Obligations.EveryInterleavingOfReadsEndsAlike : Prop :=
  ∀ (serial reader merged : List Instr) (s t : State) (outs : List Output),
    interleaves serial reader [] merged = true → runTrace merged s = some (outs, t) →
      ∃ outs' t', runTrace serial s = some (outs', t') ∧ t = { t' with out := t.out }

/-- R223, R64: running the host's machine over the words of a list of events is running the events one by one (that the
words wait in `pending` is the model's choice, log entry 3). -/
def Obligations.RunningWordsIsRunningEvents : Prop :=
  ∀ (is : List Instr) (s : State), s.cfg.wf = true → s.pending = [] →
    Host.Core.run Sys2Proof.core is.length { s with pending := is.map encode } =
      (match runEvents is s with
      | .next t => .next t
      | .fault f => .fault f
      | .refused r => .refused r)

/-! ## The clocked mapping -/

/-- R220, R221: the event of an edge, by priority; the inputs that lose are dropped. -/
def Obligations.EdgePriority : Prop :=
  ∀ p : PortsIn,
    (p.rst = true → edgeEvent p = some .rst) ∧
    (p.rst = false → p.rxError = true → edgeEvent p = some .ioerr) ∧
    (p.rst = false → p.rxError = false → p.rxValid = true → edgeEvent p = some (.rxb p.rxData)) ∧
    (p.rst = false → p.rxError = false → p.rxValid = false → p.rxTimeout = true → edgeEvent p = some .tmo) ∧
    (p.rst = false → p.rxError = false → p.rxValid = false → p.rxTimeout = false → edgeEvent p = none)

/-- R220, R222: an edge applies its event; without one the state is unchanged and the pulses are low. That one call of
`clockEdge` is one edge is the model's form (log entry 12). -/
def Obligations.EdgeAppliesAtMostOneEvent : Prop :=
  ∀ (p : PortsIn) (s : State), s.cfg.wf = true →
    (∀ i, edgeEvent p = some i → clockEdge p s = exec i s) ∧
    (edgeEvent p = none → clockEdge p s = .next { s with out := Output.silent }) ∧
    (s.resetSeen = true → edgeEvent p = none →
      ∃ t q, clockEdge p s = .next t ∧ portsOut t = some q ∧
        q.smpValid = false ∧ q.smpPass = false ∧ q.evCode = 0#3 ∧
        portsOut s = some { q with smpValid := s.out.sample.isSome, smpPass := s.out.pass, evCode := s.out.ev.code })

/-- R30, R34, R88: RDAVG and RDSTAT are samples of the output ports. -/
def Obligations.ReadsSampleTheOutputPorts : Prop :=
  ∀ s : State, s.resetSeen = true → s.cfg.aggPresent = true →
    ∃ q, portsOut s = some q ∧
      (q.avgValid = false → q.avgValue = 0#16) ∧
      exec .rdavg s =
        .next { s with out := { Output.silent with rd := some (.avg (BitVec.ofBool q.avgValid ++ q.avgValue)) } } ∧
      exec .rdstat s = .next { s with out := { Output.silent with rd := some (.status q.status) } }
end

