-- ==== Sys2Proof/Laws/State.lean ====
section
/-! SUPPORT. One lemma per field per update of the state (true by rfl), so that later proofs unfold no record update. -/

namespace Sys2Proof.Machine

open Sys2Proof

variable (s : State)

@[simp] theorem report_cfg (e : EventCode) : (s.report e).cfg = s.cfg := rfl
@[simp] theorem report_phase (e : EventCode) : (s.report e).phase = s.phase := rfl
@[simp] theorem report_h0 (e : EventCode) : (s.report e).h0 = s.h0 := rfl
@[simp] theorem report_body (e : EventCode) : (s.report e).body = s.body := rfl
@[simp] theorem report_win (e : EventCode) : (s.report e).win = s.win := rfl
@[simp] theorem report_smp (e : EventCode) : (s.report e).smp = s.smp := rfl
@[simp] theorem report_refused (e : EventCode) : (s.report e).refused = s.refused := rfl
@[simp] theorem report_resetSeen (e : EventCode) : (s.report e).resetSeen = s.resetSeen := rfl
@[simp] theorem report_pending (e : EventCode) : (s.report e).pending = s.pending := rfl
@[simp] theorem report_out (e : EventCode) : (s.report e).out = { Output.silent with ev := e } := rfl

@[simp] theorem answer_cfg (r : ReadWord) : (s.answer r).cfg = s.cfg := rfl
@[simp] theorem answer_phase (r : ReadWord) : (s.answer r).phase = s.phase := rfl
@[simp] theorem answer_h0 (r : ReadWord) : (s.answer r).h0 = s.h0 := rfl
@[simp] theorem answer_body (r : ReadWord) : (s.answer r).body = s.body := rfl
@[simp] theorem answer_win (r : ReadWord) : (s.answer r).win = s.win := rfl
@[simp] theorem answer_smp (r : ReadWord) : (s.answer r).smp = s.smp := rfl
@[simp] theorem answer_refused (r : ReadWord) : (s.answer r).refused = s.refused := rfl
@[simp] theorem answer_resetSeen (r : ReadWord) : (s.answer r).resetSeen = s.resetSeen := rfl
@[simp] theorem answer_pending (r : ReadWord) : (s.answer r).pending = s.pending := rfl
@[simp] theorem answer_out (r : ReadWord) : (s.answer r).out = { Output.silent with rd := some r } := rfl

@[simp] theorem idle_cfg : (idle s).cfg = s.cfg := rfl
@[simp] theorem idle_phase : (idle s).phase = s.phase := rfl
@[simp] theorem idle_h0 : (idle s).h0 = s.h0 := rfl
@[simp] theorem idle_body : (idle s).body = s.body := rfl
@[simp] theorem idle_win : (idle s).win = s.win := rfl
@[simp] theorem idle_smp : (idle s).smp = s.smp := rfl
@[simp] theorem idle_refused : (idle s).refused = s.refused := rfl
@[simp] theorem idle_resetSeen : (idle s).resetSeen = s.resetSeen := rfl
@[simp] theorem idle_pending : (idle s).pending = s.pending := rfl
@[simp] theorem idle_out : (idle s).out = Output.silent := rfl

@[simp] theorem resync_cfg (e : EventCode) : (resync e s).cfg = s.cfg := rfl
@[simp] theorem resync_phase (e : EventCode) : (resync e s).phase = .pair0 := rfl
@[simp] theorem resync_h0 (e : EventCode) : (resync e s).h0 = s.h0 := rfl
@[simp] theorem resync_body (e : EventCode) : (resync e s).body = s.body := rfl
@[simp] theorem resync_win (e : EventCode) : (resync e s).win = s.win := rfl
@[simp] theorem resync_smp (e : EventCode) : (resync e s).smp = s.smp := rfl
@[simp] theorem resync_refused (e : EventCode) : (resync e s).refused = s.refused := rfl
@[simp] theorem resync_resetSeen (e : EventCode) : (resync e s).resetSeen = s.resetSeen := rfl
@[simp] theorem resync_pending (e : EventCode) : (resync e s).pending = s.pending := rfl
@[simp] theorem resync_out (e : EventCode) : (resync e s).out = { Output.silent with ev := e } := rfl

@[simp] theorem holdByte_cfg (b : Byte) : (holdByte b s).cfg = s.cfg := rfl
@[simp] theorem holdByte_phase (b : Byte) : (holdByte b s).phase = .pair1 := rfl
@[simp] theorem holdByte_h0 (b : Byte) : (holdByte b s).h0 = b := rfl
@[simp] theorem holdByte_body (b : Byte) : (holdByte b s).body = s.body := rfl
@[simp] theorem holdByte_win (b : Byte) : (holdByte b s).win = s.win := rfl
@[simp] theorem holdByte_smp (b : Byte) : (holdByte b s).smp = s.smp := rfl
@[simp] theorem holdByte_refused (b : Byte) : (holdByte b s).refused = s.refused := rfl
@[simp] theorem holdByte_resetSeen (b : Byte) : (holdByte b s).resetSeen = s.resetSeen := rfl
@[simp] theorem holdByte_pending (b : Byte) : (holdByte b s).pending = s.pending := rfl
@[simp] theorem holdByte_out (b : Byte) : (holdByte b s).out = Output.silent := rfl

@[simp] theorem enterBody_cfg : (enterBody s).cfg = s.cfg := rfl
@[simp] theorem enterBody_phase : (enterBody s).phase = .body := rfl
@[simp] theorem enterBody_h0 : (enterBody s).h0 = s.h0 := rfl
@[simp] theorem enterBody_body : (enterBody s).body = [] := rfl
@[simp] theorem enterBody_win : (enterBody s).win = s.win := rfl
@[simp] theorem enterBody_smp : (enterBody s).smp = s.smp := rfl
@[simp] theorem enterBody_refused : (enterBody s).refused = s.refused := rfl
@[simp] theorem enterBody_resetSeen : (enterBody s).resetSeen = s.resetSeen := rfl
@[simp] theorem enterBody_pending : (enterBody s).pending = s.pending := rfl
@[simp] theorem enterBody_out : (enterBody s).out = Output.silent := rfl

@[simp] theorem pushBody_cfg (b : Byte) : (pushBody b s).cfg = s.cfg := rfl
@[simp] theorem pushBody_phase (b : Byte) : (pushBody b s).phase = s.phase := rfl
@[simp] theorem pushBody_h0 (b : Byte) : (pushBody b s).h0 = s.h0 := rfl
@[simp] theorem pushBody_body (b : Byte) : (pushBody b s).body = s.body ++ [b] := rfl
@[simp] theorem pushBody_win (b : Byte) : (pushBody b s).win = s.win := rfl
@[simp] theorem pushBody_smp (b : Byte) : (pushBody b s).smp = s.smp := rfl
@[simp] theorem pushBody_refused (b : Byte) : (pushBody b s).refused = s.refused := rfl
@[simp] theorem pushBody_resetSeen (b : Byte) : (pushBody b s).resetSeen = s.resetSeen := rfl
@[simp] theorem pushBody_pending (b : Byte) : (pushBody b s).pending = s.pending := rfl
@[simp] theorem pushBody_out (b : Byte) : (pushBody b s).out = Output.silent := rfl

@[simp] theorem dropBody_cfg : (dropBody s).cfg = s.cfg := rfl
@[simp] theorem dropBody_phase : (dropBody s).phase = s.phase := rfl
@[simp] theorem dropBody_h0 : (dropBody s).h0 = s.h0 := rfl
@[simp] theorem dropBody_body : (dropBody s).body = [] := rfl
@[simp] theorem dropBody_win : (dropBody s).win = s.win := rfl
@[simp] theorem dropBody_smp : (dropBody s).smp = s.smp := rfl
@[simp] theorem dropBody_refused : (dropBody s).refused = s.refused := rfl
@[simp] theorem dropBody_resetSeen : (dropBody s).resetSeen = s.resetSeen := rfl
@[simp] theorem dropBody_pending : (dropBody s).pending = s.pending := rfl
@[simp] theorem dropBody_out : (dropBody s).out = s.out := rfl

@[simp] theorem halt_cfg : (halt s).cfg = s.cfg := rfl
@[simp] theorem halt_phase : (halt s).phase = .halted := rfl
@[simp] theorem halt_h0 : (halt s).h0 = s.h0 := rfl
@[simp] theorem halt_body : (halt s).body = [] := rfl
@[simp] theorem halt_win : (halt s).win = s.win := rfl
@[simp] theorem halt_smp : (halt s).smp = s.smp := rfl
@[simp] theorem halt_refused : (halt s).refused = s.refused := rfl
@[simp] theorem halt_resetSeen : (halt s).resetSeen = s.resetSeen := rfl
@[simp] theorem halt_pending : (halt s).pending = s.pending := rfl
@[simp] theorem halt_out : (halt s).out = { Output.silent with ev := .ioErr } := rfl

@[simp] theorem accept_cfg (d : U16) : (accept d s).cfg = s.cfg := rfl
@[simp] theorem accept_phase (d : U16) : (accept d s).phase = s.phase := rfl
@[simp] theorem accept_h0 (d : U16) : (accept d s).h0 = s.h0 := rfl
@[simp] theorem accept_body (d : U16) : (accept d s).body = s.body := rfl
@[simp] theorem accept_win (d : U16) : (accept d s).win = if s.win.length = s.cfg.n then s.win.drop 1 ++ [d] else s.win ++ [d] := rfl
@[simp] theorem accept_smp (d : U16) : (accept d s).smp = s.smp := rfl
@[simp] theorem accept_refused (d : U16) : (accept d s).refused = s.refused := rfl
@[simp] theorem accept_resetSeen (d : U16) : (accept d s).resetSeen = s.resetSeen := rfl
@[simp] theorem accept_pending (d : U16) : (accept d s).pending = s.pending := rfl
@[simp] theorem accept_out (d : U16) : (accept d s).out = s.out := rfl

@[simp] theorem publish_cfg (x : Sample) : (publish x s).cfg = s.cfg := rfl
@[simp] theorem publish_phase (x : Sample) : (publish x s).phase = s.phase := rfl
@[simp] theorem publish_h0 (x : Sample) : (publish x s).h0 = s.h0 := rfl
@[simp] theorem publish_body (x : Sample) : (publish x s).body = s.body := rfl
@[simp] theorem publish_win (x : Sample) : (publish x s).win = s.win := rfl
@[simp] theorem publish_smp (x : Sample) : (publish x s).smp = x := rfl
@[simp] theorem publish_refused (x : Sample) : (publish x s).refused = s.refused := rfl
@[simp] theorem publish_resetSeen (x : Sample) : (publish x s).resetSeen = s.resetSeen := rfl
@[simp] theorem publish_pending (x : Sample) : (publish x s).pending = s.pending := rfl
@[simp] theorem publish_out (x : Sample) : (publish x s).out =
    Output.mk (some x) (passesFilter s.cfg x.strength)
      (if passesFilter s.cfg x.strength then .pass else .low) none := rfl

@[simp] theorem resetState_cfg : (resetState s).cfg = s.cfg := rfl
@[simp] theorem resetState_phase : (resetState s).phase = .pair0 := rfl
@[simp] theorem resetState_h0 : (resetState s).h0 = 0x00 := rfl
@[simp] theorem resetState_body : (resetState s).body = [] := rfl
@[simp] theorem resetState_win : (resetState s).win = [] := rfl
@[simp] theorem resetState_smp : (resetState s).smp = Sample.zero := rfl
@[simp] theorem resetState_refused : (resetState s).refused = s.refused := rfl
@[simp] theorem resetState_resetSeen : (resetState s).resetSeen = true := rfl
@[simp] theorem resetState_pending : (resetState s).pending = s.pending := rfl
@[simp] theorem resetState_out : (resetState s).out = Output.silent := rfl

@[simp] theorem present_cfg (w : EventWord) : (s.present w).cfg = s.cfg := rfl
@[simp] theorem present_phase (w : EventWord) : (s.present w).phase = s.phase := rfl
@[simp] theorem present_h0 (w : EventWord) : (s.present w).h0 = s.h0 := rfl
@[simp] theorem present_body (w : EventWord) : (s.present w).body = s.body := rfl
@[simp] theorem present_win (w : EventWord) : (s.present w).win = s.win := rfl
@[simp] theorem present_smp (w : EventWord) : (s.present w).smp = s.smp := rfl
@[simp] theorem present_refused (w : EventWord) : (s.present w).refused = s.refused := rfl
@[simp] theorem present_resetSeen (w : EventWord) : (s.present w).resetSeen = s.resetSeen := rfl
@[simp] theorem present_pending (w : EventWord) : (s.present w).pending = w :: s.pending := rfl
@[simp] theorem present_out (w : EventWord) : (s.present w).out = s.out := rfl

@[simp] theorem acceptIfPassing_cfg (x : Sample) : (acceptIfPassing x s).cfg = s.cfg := by
  unfold acceptIfPassing; split <;> rfl
@[simp] theorem acceptIfPassing_phase (x : Sample) : (acceptIfPassing x s).phase = s.phase := by
  unfold acceptIfPassing; split <;> rfl
@[simp] theorem acceptIfPassing_h0 (x : Sample) : (acceptIfPassing x s).h0 = s.h0 := by
  unfold acceptIfPassing; split <;> rfl
@[simp] theorem acceptIfPassing_body (x : Sample) : (acceptIfPassing x s).body = s.body := by
  unfold acceptIfPassing; split <;> rfl
@[simp] theorem acceptIfPassing_smp (x : Sample) : (acceptIfPassing x s).smp = s.smp := by
  unfold acceptIfPassing; split <;> rfl
@[simp] theorem acceptIfPassing_refused (x : Sample) : (acceptIfPassing x s).refused = s.refused := by
  unfold acceptIfPassing; split <;> rfl
@[simp] theorem acceptIfPassing_resetSeen (x : Sample) : (acceptIfPassing x s).resetSeen = s.resetSeen := by
  unfold acceptIfPassing; split <;> rfl
@[simp] theorem acceptIfPassing_pending (x : Sample) : (acceptIfPassing x s).pending = s.pending := by
  unfold acceptIfPassing; split <;> rfl
@[simp] theorem acceptIfPassing_out (x : Sample) : (acceptIfPassing x s).out = s.out := by
  unfold acceptIfPassing; split <;> rfl

@[simp] theorem acceptIfPassing_win (x : Sample) : (acceptIfPassing x s).win =
    if passesFilter s.cfg x.strength && s.cfg.aggPresent then (accept x.distance s).win else s.win := by
  unfold acceptIfPassing; split <;> rfl

end Sys2Proof.Machine
end

