-- ==== Sys2Proof/Laws/Ops.lean ====
section
/-! SUPPORT. What each shared operation can do, said once: provers cite these instead of unfolding the operations. -/

namespace Sys2Proof.Machine

open Sys2Proof Sys2Proof.Safety

theorem next_inj {a b : State} : (Host.Outcome.next a : Result) = .next b ↔ b = a :=
  ⟨fun h => (Host.Outcome.next.inj h).symm, fun h => h ▸ rfl⟩

/-- The admission guard: a next state comes only after the first RST, and is the guarded one. -/
theorem afterReset_next {s t : State} {r : Result} :
    afterReset s r = .next t ↔ s.resetSeen = true ∧ r = .next t := by
  unfold afterReset
  split <;> simp_all

theorem underConfig_next {s t : State} {r : Result} :
    underConfig s r = .next t ↔ s.cfg.wf = true ∧ r = .next t := by
  unfold underConfig
  split <;> simp_all

/-! Inversion of each meaning: when it answers a next state, and which. -/

theorem execRxb_next {b : Byte} {s t : State} :
    exec (.rxb b) s = .next t ↔ s.resetSeen = true ∧ t = receiveByte b s := by
  rw [exec, execRxb, afterReset_next, next_inj]

theorem execTmo_next {s t : State} :
    exec .tmo s = .next t ↔ s.resetSeen = true ∧ t = timeOut s := by
  rw [exec, execTmo, afterReset_next, next_inj]

theorem execIoerr_next {s t : State} :
    exec .ioerr s = .next t ↔ s.resetSeen = true ∧ t = if s.phase = .halted then idle s else halt s := by
  rw [exec, execIoerr, afterReset_next, next_inj]

theorem execRdavg_next {s t : State} :
    exec .rdavg s = .next t ↔
      s.resetSeen = true ∧ s.cfg.aggPresent = true ∧ t = s.answer (.avg (avgWord s)) := by
  rw [exec, execRdavg, afterReset_next]
  cases s.cfg.aggPresent
  · simp
  · simp only [↓reduceIte, next_inj, true_and]

theorem execRdstat_next {s t : State} :
    exec .rdstat s = .next t ↔ s.resetSeen = true ∧ t = s.answer (.status (statusWord s)) := by
  rw [exec, execRdstat, afterReset_next, next_inj]

theorem execRst_next {s t : State} : exec .rst s = .next t ↔ t = resetState s := by
  rw [exec, execRst, next_inj]

/-- RXB, by phase (R100). -/
theorem receiveByte_cases (b : Byte) (s : State) :
    (s.phase = .pair0 ∧ receiveByte b s = holdByte b s) ∨
    (s.phase = .pair1 ∧ syncMatches s.cfg s.h0 b = true ∧ receiveByte b s = enterBody s) ∨
    (s.phase = .pair1 ∧ syncMatches s.cfg s.h0 b = false ∧ receiveByte b s = resync .syncErr s) ∨
    (s.phase = .body ∧ s.body.length < 6 ∧ receiveByte b s = pushBody b s) ∨
    (s.phase = .body ∧ 6 ≤ s.body.length ∧ receiveByte b s = completeFrame (s.body ++ [b]) s) ∨
    (s.phase = .halted ∧ receiveByte b s = idle s) := by
  unfold receiveByte
  cases hp : s.phase with
  | pair0 => simp
  | pair1 => cases hm : syncMatches s.cfg s.h0 b <;> simp
  | body => by_cases hl : s.body.length < 6 <;> simp [hl]; omega
  | halted => simp

/-- A completed frame (R114): a bad checksum, or a sample that is low, or one that passes. -/
theorem completeFrame_cases (rest : List Byte) (s : State) :
    (checksumOk (frameOf s.cfg rest) = false ∧ completeFrame rest s = resync .csumErr (dropBody s)) ∨
    (checksumOk (frameOf s.cfg rest) = true ∧
      completeFrame rest s =
        acceptIfPassing (sampleOf (frameOf s.cfg rest))
          (publish (sampleOf (frameOf s.cfg rest)) (dropBody { s with phase := .pair0 }))) := by
  unfold completeFrame
  cases h : checksumOk (frameOf s.cfg rest)
  · exact .inl ⟨rfl, by simp [h]⟩
  · exact .inr ⟨rfl, by simp [h]⟩

/-- TMO, by phase (R115). -/
theorem timeOut_cases (s : State) :
    ((s.phase = .pair0 ∨ s.phase = .halted) ∧ timeOut s = idle s) ∨
    (s.phase = .pair1 ∧ timeOut s = resync .syncErr s) ∨
    (s.phase = .body ∧ timeOut s = resync .short (dropBody s)) := by
  unfold timeOut
  cases s.phase <;> simp

/-- R103, as a statement about the two bytes. -/
theorem syncMatches_iff {cfg : Config} {b0 b1 : Byte} :
    syncMatches cfg b0 b1 = true ↔ b0 = cfg.sync0 ∧ b1 = cfg.sync1 := by
  simp [syncMatches]

/-- R142: ACCEPT never grows the window beyond its capacity. -/
theorem accept_length_le {d : U16} {s : State} (hn : 1 ≤ s.cfg.n) (h : s.win.length ≤ s.cfg.n) :
    (accept d s).win.length ≤ s.cfg.n := by
  simp only [accept_win]
  split <;> simp <;> omega

/-- R8: the window sum is at most 65535 per element. -/
theorem winSum_le (win : List U16) : winSum win ≤ win.length * 65535 := by
  unfold winSum
  induction win with
  | nil => simp
  | cons d rest ih =>
    have := d.isLt
    simp only [List.map_cons, List.sum_cons, List.length_cons]
    omega

/-- R144: the mean, as a number. -/
theorem latest_toNat {win : List U16} {m : U16} (h : latest win = some m) :
    win ≠ [] ∧ m.toNat = winSum win / win.length := by
  unfold latest at h
  cases win with
  | nil => simp at h
  | cons d rest =>
    simp only [List.isEmpty_cons, Bool.false_eq_true, if_false, Option.some.injEq] at h
    refine ⟨by simp, ?_⟩
    have h1 : winSum (d :: rest) / (d :: rest).length ≤ 65535 :=
      Nat.div_le_of_le_mul (winSum_le (d :: rest))
    rw [← h, BitVec.toNat_ofNat]
    exact Nat.mod_eq_of_lt (by omega)

/-- R54: `le16` loses nothing. -/
theorem le16_toNat (lo hi : Byte) : (le16 lo hi).toNat = lo.toNat + 256 * hi.toNat := by
  have := lo.isLt
  have := hi.isLt
  rw [le16, BitVec.toNat_ofNat]
  exact Nat.mod_eq_of_lt (by omega)

/-- No event changes the configuration, the refusal mark or the words still pending (R33, R16). -/
theorem receiveByte_keeps (b : Byte) (s : State) :
    (receiveByte b s).cfg = s.cfg ∧ (receiveByte b s).refused = s.refused ∧
      (receiveByte b s).pending = s.pending ∧ (receiveByte b s).resetSeen = s.resetSeen := by
  rcases receiveByte_cases b s with ⟨-, h⟩ | ⟨-, -, h⟩ | ⟨-, -, h⟩ | ⟨-, -, h⟩ | ⟨-, -, h⟩ | ⟨-, h⟩ <;> rw [h] <;>
    try simp
  rcases completeFrame_cases (s.body ++ [b]) s with ⟨-, h⟩ | ⟨-, h⟩ <;> rw [h] <;> simp

/-- The same for every event that answers a next state. -/
theorem exec_keeps {i : Instr} {s t : State} (h : exec i s = .next t) :
    t.cfg = s.cfg ∧ t.refused = s.refused ∧ t.pending = s.pending := by
  cases i with
  | rxb b =>
    obtain ⟨-, rfl⟩ := execRxb_next.mp h
    have := receiveByte_keeps b s
    exact ⟨this.1, this.2.1, this.2.2.1⟩
  | tmo =>
    obtain ⟨-, rfl⟩ := execTmo_next.mp h
    rcases timeOut_cases s with ⟨-, h⟩ | ⟨-, h⟩ | ⟨-, h⟩ <;> rw [h] <;> simp
  | ioerr =>
    obtain ⟨-, rfl⟩ := execIoerr_next.mp h
    split <;> simp
  | rdavg =>
    obtain ⟨-, -, rfl⟩ := execRdavg_next.mp h
    simp
  | rdstat =>
    obtain ⟨-, rfl⟩ := execRdstat_next.mp h
    simp
  | rst =>
    obtain rfl := execRst_next.mp h
    simp

/-- Everything an event that answers a next state can have done, with the guard of each case (R100, R113 to R121, R147,
R160, R162): invariants and whole-machine rules are case analyses on this. -/
theorem exec_cases {i : Instr} {s t : State} (h : exec i s = .next t) :
    (i = .rst ∧ t = resetState s) ∨
    (s.resetSeen = true ∧
      ((∃ r, t = s.answer r ∧ agentOf i = .reader) ∨
      (t = idle s ∧ agentOf i = .serialSource ∧ (s.phase = .pair0 ∨ s.phase = .halted)) ∨
      (∃ b, i = .rxb b ∧ s.phase = .pair0 ∧ t = holdByte b s) ∨
      (∃ b, i = .rxb b ∧ s.phase = .pair1 ∧ syncMatches s.cfg s.h0 b = true ∧ t = enterBody s) ∨
      (∃ b, i = .rxb b ∧ s.phase = .pair1 ∧ syncMatches s.cfg s.h0 b = false ∧ t = resync .syncErr s) ∨
      (∃ b, i = .rxb b ∧ s.phase = .body ∧ s.body.length < 6 ∧ t = pushBody b s) ∨
      (∃ b, i = .rxb b ∧ s.phase = .body ∧ 6 ≤ s.body.length ∧
        checksumOk (frameOf s.cfg (s.body ++ [b])) = false ∧ t = resync .csumErr (dropBody s)) ∨
      (∃ b, i = .rxb b ∧ s.phase = .body ∧ 6 ≤ s.body.length ∧
        checksumOk (frameOf s.cfg (s.body ++ [b])) = true ∧
        t = acceptIfPassing (sampleOf (frameOf s.cfg (s.body ++ [b])))
          (publish (sampleOf (frameOf s.cfg (s.body ++ [b]))) (dropBody { s with phase := .pair0 }))) ∨
      (i = .tmo ∧ s.phase = .pair1 ∧ t = resync .syncErr s) ∨
      (i = .tmo ∧ s.phase = .body ∧ t = resync .short (dropBody s)) ∨
      (i = .ioerr ∧ s.phase ≠ .halted ∧ t = halt s))) := by
  cases i with
  | rxb b =>
    obtain ⟨hr, rfl⟩ := execRxb_next.mp h
    rcases receiveByte_cases b s with ⟨hp, h⟩ | ⟨hp, hm, h⟩ | ⟨hp, hm, h⟩ | ⟨hp, hl, h⟩ | ⟨hp, hl, h⟩ | ⟨hp, h⟩ <;> rw [h]
    · exact .inr ⟨hr, .inr (.inr (.inl ⟨b, rfl, hp, rfl⟩))⟩
    · exact .inr ⟨hr, .inr (.inr (.inr (.inl ⟨b, rfl, hp, hm, rfl⟩)))⟩
    · exact .inr ⟨hr, .inr (.inr (.inr (.inr (.inl ⟨b, rfl, hp, hm, rfl⟩))))⟩
    · exact .inr ⟨hr, .inr (.inr (.inr (.inr (.inr (.inl ⟨b, rfl, hp, hl, rfl⟩)))))⟩
    · rcases completeFrame_cases (s.body ++ [b]) s with ⟨hc, h⟩ | ⟨hc, h⟩ <;> rw [h]
      · exact .inr ⟨hr, .inr (.inr (.inr (.inr (.inr (.inr (.inl ⟨b, rfl, hp, hl, hc, rfl⟩))))))⟩
      · exact .inr ⟨hr, .inr (.inr (.inr (.inr (.inr (.inr (.inr (.inl ⟨b, rfl, hp, hl, hc, rfl⟩)))))))⟩
    · exact .inr ⟨hr, .inr (.inl ⟨rfl, rfl, .inr hp⟩)⟩
  | tmo =>
    obtain ⟨hr, rfl⟩ := execTmo_next.mp h
    rcases timeOut_cases s with ⟨hp, h⟩ | ⟨hp, h⟩ | ⟨hp, h⟩ <;> rw [h]
    · exact .inr ⟨hr, .inr (.inl ⟨rfl, rfl, hp⟩)⟩
    · exact .inr ⟨hr, by simp [hp]⟩
    · exact .inr ⟨hr, by simp [hp]⟩
  | ioerr =>
    obtain ⟨hr, rfl⟩ := execIoerr_next.mp h
    split
    · next hp => exact .inr ⟨hr, .inr (.inl ⟨rfl, rfl, .inr hp⟩)⟩
    · next hp => exact .inr ⟨hr, by simp [hp]⟩
  | rdavg => obtain ⟨hr, _, rfl⟩ := execRdavg_next.mp h; exact .inr ⟨hr, .inl ⟨_, rfl, rfl⟩⟩
  | rdstat => obtain ⟨hr, rfl⟩ := execRdstat_next.mp h; exact .inr ⟨hr, .inl ⟨_, rfl, rfl⟩⟩
  | rst => exact .inl ⟨rfl, execRst_next.mp h⟩

/-- No event reads the pending words or the last step's outputs. -/
theorem receiveByte_of_pending_out (b : Byte) (s : State) (p : List EventWord) (o : Output) :
    receiveByte b { s with pending := p, out := o } = { receiveByte b s with pending := p } := by
  obtain ⟨cfg, ph, h0, body, win, smp, rf, rs, pd, ou⟩ := s
  cases ph
  · rfl
  · simp only [receiveByte]; split <;> rfl
  · simp only [receiveByte]; split
    · rfl
    · simp only [completeFrame]; split
      · simp only [acceptIfPassing, publish, dropBody]
        generalize sampleOf (frameOf cfg (body ++ [b])) = x
        by_cases hf : (passesFilter cfg x.strength && cfg.aggPresent) = true
        · simp only [hf, if_true]; rfl
        · simp only [hf]; rfl
      · rfl
  · rfl

theorem timeOut_of_pending_out (s : State) (p : List EventWord) (o : Output) :
    timeOut { s with pending := p, out := o } = { timeOut s with pending := p } := by
  obtain ⟨cfg, ph, h0, body, win, smp, rf, rs, pd, ou⟩ := s
  cases ph <;> rfl

/-- The same for every event: its answer with other pending words and other last outputs. -/
theorem exec_of_pending_out (i : Instr) (s : State) (p : List EventWord) (o : Output) :
    exec i { s with pending := p, out := o } =
      match exec i s with
      | .next t => .next { t with pending := p }
      | .refused r => .refused r := by
  have hb := fun b => receiveByte_of_pending_out b s p o
  have ht := timeOut_of_pending_out s p o
  obtain ⟨cfg, ph, h0, body, win, smp, rf, rs, pd, ou⟩ := s
  cases rs <;> cases i <;> try rfl
  · exact congrArg Host.Outcome.next (hb _)
  · exact congrArg Host.Outcome.next ht
  · cases ph <;> rfl
  · obtain ⟨s0, s1, n, m, ag⟩ := cfg
    cases ag <;> rfl

end Sys2Proof.Machine
end

