-- ==== Sys2Proof/Laws/PerInstr.lean ====
section
/-! SUPPORT. Statements made for every event, one lemma per constructor. -/

namespace Sys2Proof.Laws

open Sys2Proof

/-- R82, R83: an event's row is a row of the opcode table, and the event's word is of that row. -/
def TableRow.Statement (i : Instr) : Prop := rowOf i ∈ opcodeTable ∧ (rowOf i).matches (encode i) = true

theorem TableRow.rxb (b : Byte) : TableRow.Statement (.rxb b) := by
  refine ⟨List.mem_cons_self, ?_⟩
  revert b
  decide

theorem TableRow.tmo : TableRow.Statement .tmo := ⟨by decide, by decide⟩

theorem TableRow.ioerr : TableRow.Statement .ioerr := ⟨by decide, by decide⟩

theorem TableRow.rdavg : TableRow.Statement .rdavg := ⟨by decide, by decide⟩

theorem TableRow.rdstat : TableRow.Statement .rdstat := ⟨by decide, by decide⟩

theorem TableRow.rst : TableRow.Statement .rst := ⟨by decide, by decide⟩

end Sys2Proof.Laws
end

