-- ==== Sys2Proof/Laws/Run.lean ====
section
/-! SUPPORT. Runs over events, one step at a time. -/

namespace Sys2Proof.Machine

open Sys2Proof

/-- A run's first step: it answers a next state, and the rest of the run goes on from there. -/
theorem runTrace_cons {i : Instr} {is : List Instr} {s : State} {r : List Output × State} :
    runTrace (i :: is) s = some r ↔
      ∃ t outs u, exec i s = .next t ∧ runTrace is t = some (outs, u) ∧ r = (t.out :: outs, u) := by
  simp only [runTrace]
  cases h : exec i s with
  | next t =>
    simp only [Option.map_eq_some_iff, Prod.exists, Host.Outcome.next.injEq, exists_and_left, exists_eq_left']
    constructor
    · rintro ⟨a, b, h1, rfl⟩
      exact ⟨a, b, h1, rfl⟩
    · rintro ⟨a, b, h1, rfl⟩
      exact ⟨a, b, h1, rfl⟩
  | fault f => nomatch f
  | refused r => simp

/-- RXB after the first RST is the phase's update, and a run goes on from it. -/
theorem runTrace_rxb {b : Byte} {is : List Instr} {s : State} (h : s.resetSeen = true) :
    runTrace (.rxb b :: is) s =
      (runTrace is (receiveByte b s)).map fun r => ((receiveByte b s).out :: r.1, r.2) := by
  simp only [runTrace, execRxb_next.mpr ⟨h, rfl⟩]

end Sys2Proof.Machine
end

