-- ==== Sys2Proof/Tests/Slice0.lean ====
section
/-! SUPPORT. The author's tests, each with its expected result from spec/ (mostly spec/95_test_vectors.md, named by its
ids), and one witness for the hypotheses of every statement that has some. -/

namespace Sys2Proof.Tests

open Sys2Proof Sys2Proof.Machine Sys2Proof.Safety

/-! ## Helpers -/

/-- The next state of an answer, where there is one. -/
def nextOf (r : Result) : Option State :=
  match r with
  | .next t => some t
  | .refused _ => none

def refusalOf (r : Result) : Option Refusal :=
  match r with
  | .next _ => none
  | .refused c => some c

/-- In BODY under the default configuration, holding these body bytes. -/
def inBody (body : List Byte) : State := { State.reset with phase := .body, body := body }

def inPair1 (h0 : Byte) : State := { State.reset with phase := .pair1, h0 := h0 }

def inHalted (win : List U16) : State := { State.reset with phase := .halted, win := win }

def withWin (win : List U16) : State := { State.reset with win := win }

def unreset : State := { State.reset with resetSeen := false }

def noAgg : Config := { Config.default with aggPresent := false }

def capacity (n : Nat) : Config := { Config.default with n := n }

/-- The six body bytes of the base frame F of 95 2.2 (distance 123, strength 200, temp_raw 2248; checksum C5). -/
def bodyF : List Byte := [0x7B, 0x00, 0xC8, 0x00, 0xC8, 0x08]

/-- The base frame F of 95 2.2. -/
def frameF : List Byte := [0x59, 0x59, 0x7B, 0x00, 0xC8, 0x00, 0xC8, 0x08, 0xC5]

/-! ## Well-formedness. No ill-formed event exists: RXB's operand is any byte, no other event has one. -/

theorem test_capacity_zero_is_ill_formed : (capacity 0).wf = false := by decide

theorem test_capacity_sixteen_is_ill_formed : (capacity 16).wf = false := by decide

theorem test_capacity_one_and_fifteen_are_well_formed : (capacity 1).wf = true ∧ (capacity 15).wf = true := by decide

theorem test_rxs_without_bytes_is_ill_formed : (AsmLine.rxs []).wf = false := by decide

/-! ## Decoding: every constructor's word, bit by bit from R80 to R83 -/

theorem test_decode_rxb : decode 0b0000_11000101#12 = .event (.rxb 0xC5) := by decide

theorem test_decode_tmo : decode 0b0001_00000000#12 = .event .tmo := by decide

theorem test_decode_ioerr : decode 0b0010_00000000#12 = .event .ioerr := by decide

theorem test_decode_rdavg : decode 0b0011_00000000#12 = .event .rdavg := by decide

theorem test_decode_rdstat : decode 0b0100_00000000#12 = .event .rdstat := by decide

theorem test_decode_rst : decode 0b0101_00000000#12 = .event .rst := by decide

/-- V-C-7, V-C-8 and the table of 95 2.6. -/
theorem test_decode_reserved : decode 0x101 = .reserved 0x101 ∧ decode 0x501 = .reserved 0x501 ∧
    decode 0x600 = .reserved 0x600 ∧ decode 0xFFF = .reserved 0xFFF := by decide

theorem test_no_table_rows_overlap :
    opcodeTable.Pairwise (fun r r' => r.pattern &&& (r.mask &&& r'.mask) ≠ r'.pattern &&& (r.mask &&& r'.mask)) := by
  decide

theorem test_table_word_above_twelve_bits_is_none :
    decodeTableWord 16 0x1100 = none ∧ decodeTableWord 16 0x0100 = some .tmo := by decide

/-! ## RXB (95 2.1) -/

/-- V-D-8. -/
theorem test_rxb_completes_frame_pass :
    (nextOf (exec (.rxb 0xC5) (inBody bodyF))).map (fun t => (t.smp, t.win, statusWord t)) =
      some (⟨123, 200, 2248, 200⟩, [123], 0x0102) ∧
    (nextOf (exec (.rxb 0xC5) (inBody bodyF))).map (fun t => (t.out.sample, t.out.pass, t.out.ev)) =
      some (some ⟨123, 200, 2248, 200⟩, true, .pass) := by decide

/-- V-D-5: the second byte of a mismatched pair is not kept. -/
theorem test_rxb_mismatch_drops_both_bytes :
    (nextOf (exec (.rxb 0x59) (inPair1 0x00))).map (fun t => (t.phase, t.out.ev, statusWord t)) =
      some (.pair0, .syncErr, 0x0000) := by decide

/-! ## TMO -/

/-- V-D-11. -/
theorem test_tmo_in_pair1 :
    (nextOf (exec .tmo (inPair1 0x59))).map (fun t => (t.phase, t.out.ev)) = some (.pair0, .syncErr) := by decide

/-- V-D-13. -/
theorem test_tmo_in_body :
    (nextOf (exec .tmo (inBody bodyF))).map (fun t => (t.phase, t.body, t.out.ev, statusWord t)) =
      some (.pair0, [], .short, 0x0000) := by decide

/-! ## IOERR -/

/-- V-D-15. -/
theorem test_ioerr_in_body :
    (nextOf (exec .ioerr (inBody [0x7B]))).map (fun t => (t.phase, t.body, t.out.ev, statusWord t)) =
      some (.halted, [], .ioErr, 0x000D) := by decide

/-- V-D-18. -/
theorem test_ioerr_in_halted :
    (nextOf (exec .ioerr (inHalted []))).map (fun t => (t.phase, t.out.ev, statusWord t)) =
      some (.halted, .none, 0x000D) := by decide

/-! ## RDAVG -/

/-- 95 2.5: 2.5 is truncated to 2. -/
theorem test_rdavg_truncates :
    (nextOf (exec .rdavg (withWin [1, 2, 3, 4]))).map (fun t => t.out.rd) = some (some (.avg 0x10002)) := by decide

/-- V-C-11. -/
theorem test_rdavg_without_aggregator :
    refusalOf (exec .rdavg (State.resetWith noAgg)) = some .aggregatorAbsent := by decide

/-! ## RDSTAT -/

/-- V-C-6. -/
theorem test_rdstat_body_count :
    (nextOf (exec .rdstat (inBody [1, 2, 3]))).map (fun t => t.out.rd) = some (some (.status 0x0038)) := by decide

/-- Program P4 before its last RST. -/
theorem test_rdstat_in_halted :
    (nextOf (exec .rdstat (inHalted [123]))).map (fun t => t.out.rd) = some (some (.status 0x010F)) := by decide

/-! ## RST -/

/-- V-D-19. -/
theorem test_rst_leaves_halted :
    (nextOf (exec .rst (inHalted [123]))).map (fun t => (t.phase, t.win, statusWord t)) =
      some (.pair0, [], 0x0000) := by decide

/-- V-C-1 and R212: before the first RST, RDSTAT is refused and RST is not. -/
theorem test_before_the_first_rst :
    refusalOf (exec .rdstat unreset) = some .beforeReset ∧ nextOf (exec .rst unreset) = some State.reset := by decide

/-! ## The shared operations -/

/-- 95 2.2: V-CS-1, V-CS-10, and the undetected errors V-CS-11 and V-CS-12. -/
theorem test_checksum :
    validFrame Config.default frameF = true ∧
    validFrame Config.default [0x59, 0x59, 0x7B, 0x00, 0xC8, 0x00, 0xC8, 0x08, 0xC6] = false ∧
    validFrame Config.default [0x59, 0x59, 0x7C, 0xFF, 0xC8, 0x00, 0xC8, 0x08, 0xC5] = true ∧
    validFrame Config.default [0x59, 0x59, 0xC8, 0x00, 0x7B, 0x00, 0xC8, 0x08, 0xC5] = true := by decide

/-- 95 2.2: the sync bytes are matched in order (sync word AA 55). -/
theorem test_sync_order :
    syncMatches { Config.default with sync0 := 0xAA, sync1 := 0x55 } 0x55 0xAA = false ∧
    syncMatches { Config.default with sync0 := 0xAA, sync1 := 0x55 } 0xAA 0x55 = true := by decide

/-- 95 2.3. -/
theorem test_temperature_q3 :
    (tempQ3Of 0).toInt = -2048 ∧ (tempQ3Of 2047).toInt = -1 ∧ (tempQ3Of 2248).toInt = 200 ∧
    (tempQ3Of 65535).toInt = 63487 := by decide

/-- 95 2.3: bytes 2C 01 are 300. -/
theorem test_le16 : le16 0x2C 0x01 = 300 := by decide

/-- 95 2.4. -/
theorem test_filter :
    passesFilter Config.default 49 = false ∧ passesFilter Config.default 50 = true ∧
    passesFilter { Config.default with minStrength := 0 } 0 = true ∧
    passesFilter { Config.default with minStrength := 65535 } 65534 = false := by decide

/-- E1 (source section 8), and 95 2.5 with N = 1. -/
theorem test_accept_evicts_the_oldest :
    (accept 60 (withWin [10, 20, 30, 40, 50])).win = [20, 30, 40, 50, 60] ∧
    (accept 20 { State.resetWith (capacity 1) with win := [10] }).win = [20] := by decide

/-- 95 2.5. -/
theorem test_mean :
    latest [] = none ∧ latest [10, 20] = some 15 ∧ latest [0, 65535] = some 0x7FFF ∧
    latest [65535, 65535, 65535, 65535, 65535] = some 65535 := by decide

/-- The step takes the presented word, and runs it first after reset. -/
theorem test_step_runs_the_presented_word :
    nextOf (step (State.reset.withFetchWord 16 0x059)) = nextOf (exec (.rxb 0x59) State.reset) ∧
    refusalOf (step (State.reset.withFetchWord 16 0x600)) = some (.reserved 0x600) := by decide

/-- R221: a byte at an edge where `rx_error` wins is lost; `rst` wins over all. -/
theorem test_edge_priority :
    edgeEvent ⟨false, true, 0x59, true, true⟩ = some .ioerr ∧
    edgeEvent ⟨true, true, 0x59, true, true⟩ = some .rst ∧
    edgeEvent ⟨false, true, 0x59, true, false⟩ = some (.rxb 0x59) := by decide

/-- R84, R16: a refused word leaves the state and sets the mark. -/
theorem test_refusal_mark :
    offer Config.default 0x600 State.reset = { State.reset with refused := true } ∧
    observe Config.default [(Config.default, 0x600)] = none := by decide

/-- Program P1 of 95 section 3. -/
theorem test_assembler_p1 :
    assembleText Config.default
        "rst ; 500\nrxf 123 200 2248\nrdavg\nrdstat ; 400".toList =
      some [0x500, 0x059, 0x059, 0x07B, 0x000, 0x0C8, 0x000, 0x0C8, 0x008, 0x0C5, 0x300, 0x400] := by decide

/-- R90 to R92: rxs, a given checksum, a comment line; a byte out of range and an unknown line are refused. -/
theorem test_assembler_lines :
    parseProgram "; P4\n\nrxs 0x59 89\nrxf 2000 100 2248 cs=0x00".toList =
      some [.rxs [0x59, 89], .rxf 2000 100 2248 (some 0x00)] ∧
    parseProgram "rxb 256".toList = none ∧ parseProgram "rdx".toList = none := by decide

/-! ## Witnesses: states and operands that meet the hypotheses of each statement together, one for each clause -/

theorem witness_DecodeEncodeRoundTrip :
    (Instr.rxb 0xFF).wf = true ∧ decode 0x0FF = .event (.rxb 0xFF) := by decide

theorem witness_DecodeFollowsTheOpcodeTable : decode 0x500 = .event .rst ∧ decode 0x000 = .event (.rxb 0) := by decide

theorem witness_ReservedWordsAreRefused :
    State.reset.cfg.wf = true ∧ decode 0x600 = .reserved 0x600 ∧ decode 0x101 = .reserved 0x101 ∧
    decode 0x5FF = .reserved 0x5FF := by decide

theorem witness_StepRunsTheDecodedEvent :
    let s := { State.reset with pending := [0x0FF, 0x100] }
    s.cfg.wf = true ∧ s.pending = [0x0FF, 0x100] ∧ decode 0x0FF = .event (.rxb 0xFF) := by decide

theorem witness_PresentedWordIsRunNext :
    State.reset.cfg.wf = true ∧ decodeTableWord 16 0x0FF = some (.rxb 0xFF) ∧
    decodeTableWord 12 0x500 = some .rst := by decide

theorem witness_NoPendingEventIdles : State.reset.cfg.wf = true ∧ State.reset.pending = [] := by decide

theorem witness_BadOrChangedConfigurationIsRefused :
    (capacity 0).n = 0 ∧ 15 < (capacity 16).n ∧ 1 ≤ (capacity 1).n ∧ (capacity 15).n ≤ 15 ∧
    noAgg ≠ State.reset.cfg := by decide

theorem witness_BadConfigurationNeverSteps :
    (State.resetWith (capacity 0)).cfg.n = 0 ∧ 15 < (State.resetWith (capacity 16)).cfg.n := by decide

/-- Each of the four causes happens under a JFD configuration. -/
theorem witness_StepsAreRefusedForExactlyFourCauses :
    State.reset.cfg.wf = true ∧ (State.resetWith noAgg).cfg.wf = true ∧
    refusalOf (stepUnder noAgg 0x500 State.reset) = some .configChanged ∧
    refusalOf (stepUnder Config.default 0x600 State.reset) = some (.reserved 0x600) ∧
    refusalOf (stepUnder Config.default 0x400 unreset) = some .beforeReset ∧
    refusalOf (stepUnder noAgg 0x300 (State.resetWith noAgg)) = some .aggregatorAbsent := by decide

theorem witness_EventsBeforeTheFirstResetAreRefused : unreset.resetSeen = false ∧ Instr.rdavg ≠ .rst := by decide

theorem witness_RstForgetsThePast :
    inHalted [7] ≠ inBody bodyF ∧ (inHalted [7]).cfg = (inBody bodyF).cfg ∧
    (inHalted [7]).refused = (inBody bodyF).refused ∧ (inHalted [7]).pending = (inBody bodyF).pending ∧
    nextOf (exec .rst (inHalted [7])) = some State.reset := by decide

theorem witness_RxbInPair0HoldsTheByte : State.reset.resetSeen = true ∧ State.reset.phase = .pair0 := by decide

/-- Both clauses, the second with only one byte of the pair matching. -/
theorem witness_RxbInPair1ComparesThePair :
    (inPair1 0x59).resetSeen = true ∧ (inPair1 0x59).phase = .pair1 ∧
    ((inPair1 0x59).h0 = Config.default.sync0 ∧ (0x59 : Byte) = Config.default.sync1) ∧
    ¬((inPair1 0x59).h0 = Config.default.sync0 ∧ (0x58 : Byte) = Config.default.sync1) := by decide

theorem witness_RxbInBodyStoresTheByte :
    (inBody [1, 2, 3, 4, 5]).resetSeen = true ∧ (inBody [1, 2, 3, 4, 5]).phase = .body ∧
    (inBody [1, 2, 3, 4, 5]).body.length < 6 := by decide

/-- The three clauses at the boundary strengths: F has checksum C5; with strength 49 it is 2E, with 50 it is 2F. -/
theorem witness_SeventhBodyByteCompletesTheFrame :
    (inBody bodyF).resetSeen = true ∧ (inBody bodyF).phase = .body ∧
    (inBody bodyF).body = [0x7B, 0x00, 0xC8, 0x00, 0xC8, 0x08] ∧
    (0xC4 : Byte).toNat ≠ (0x59 + 0x59 + 0x7B + 0x00 + 0xC8 + 0x00 + 0xC8 + 0x08) % 256 ∧
    ((0x2E : Byte).toNat = (0x59 + 0x59 + 0x7B + 0x00 + 0x31 + 0x00 + 0xC8 + 0x08) % 256 ∧
      49 + 256 * 0 < Config.default.minStrength.toNat) ∧
    ((0x2F : Byte).toNat = (0x59 + 0x59 + 0x7B + 0x00 + 0x32 + 0x00 + 0xC8 + 0x08) % 256 ∧
      Config.default.minStrength.toNat ≤ 50 + 256 * 0) := by decide

/-- A step with a sample that passes, one without a sample, and one outside PAIR0, PAIR1 and BODY. -/
theorem witness_RxbFrame :
    (nextOf (exec (.rxb 0xC5) (inBody bodyF))).map (fun t => t.out.sample) = some (some ⟨123, 200, 2248, 200⟩) ∧
    (nextOf (exec (.rxb 0xC4) (inBody bodyF))).map (fun t => (t.out.sample, t.out.pass)) = some (none, false) ∧
    (nextOf (exec (.rxb 0xC5) (inHalted []))).isSome = true ∧ (inHalted []).phase ≠ .pair0 ∧
    (inHalted []).phase ≠ .pair1 ∧ (inHalted []).phase ≠ .body := by decide

theorem witness_TmoInEachPhase :
    State.reset.resetSeen = true ∧ State.reset.phase = .pair0 ∧ (inPair1 0).phase = .pair1 ∧
    (inBody []).phase = .body ∧ (inHalted []).phase = .halted ∧ (inPair1 0).resetSeen = true ∧
    (inBody []).resetSeen = true ∧ (inHalted []).resetSeen = true := by decide

theorem witness_IoerrHaltsOnce :
    (inBody [0x7B]).resetSeen = true ∧ (inBody [0x7B]).phase ≠ .halted ∧
    (inHalted []).resetSeen = true ∧ (inHalted []).phase = .halted := by decide

theorem witness_TmoAndIoerrFrame :
    (nextOf (exec .tmo (inBody bodyF))).isSome = true ∧ (nextOf (exec .ioerr (inBody bodyF))).isSome = true := by decide

theorem witness_HaltedIsTerminalUntilRst :
    (inHalted [7]).resetSeen = true ∧ (inHalted [7]).phase = .halted ∧ (inHalted [7]).cfg.aggPresent = true ∧
    { inHalted [] with cfg := noAgg }.cfg.aggPresent = false ∧
    (nextOf (exec .rst (inHalted [7]))).isSome = true := by decide

theorem witness_RdavgReturnsTheTruncatedMean :
    (withWin []).resetSeen = true ∧ (withWin []).cfg.aggPresent = true ∧ (withWin []).win = [] ∧
    (withWin [65535]).win ≠ [] ∧ (State.resetWith noAgg).cfg.aggPresent = false ∧
    (State.resetWith noAgg).resetSeen = true := by decide

/-- Six body bytes and a full window. -/
theorem witness_RdstatReturnsTheStatusFields :
    let s := { inBody bodyF with win := [1, 2, 3, 4, 5] }
    s.resetSeen = true ∧ StateInv s ∧ s.cfg.wf = true := by decide

theorem witness_StatusFieldIdentities :
    let s := { inBody bodyF with win := [1, 2, 3, 4, 5] }
    StateInv s ∧ s.cfg.wf = true ∧ (statusWord s).extractLsb' 4 3 ≠ 0#3 := by decide

theorem witness_ReadsChangeNothing :
    (nextOf (exec .rdavg (withWin [7]))).isSome = true ∧ (nextOf (exec .rdstat (inHalted []))).isSome = true := by decide

theorem witness_MeanTruncationLaw : ([65535] : List U16) ≠ [] := by decide

theorem witness_MeanLiesBetweenLeastAndGreatest :
    latest [0, 65535] = some 0x7FFF ∧ latest [7, 7] = some 7 ∧ ∀ d ∈ ([7, 7] : List U16), d = 7 :=
  ⟨by decide, by decide, by simp⟩

theorem witness_WindowSumFitsItsWidth :
    Config.default.wf = true ∧ ([1, 2, 3, 4, 5] : List U16).length ≤ Config.default.n ∧ Config.default.n = 5 := by decide

theorem witness_WindowGrowsAtTheNewEndOnly :
    (nextOf (exec (.rxb 0xC5) { inBody bodyF with win := [1, 2, 3, 4, 5] })).map (fun t => t.win) =
      some [2, 3, 4, 5, 123] := by decide

theorem witness_WindowHoldsTheLastAcceptedDistances :
    let s := { inBody bodyF with win := [1, 2, 3, 4, 5] }
    s.cfg.wf = true ∧ s.cfg.aggPresent = true ∧ s.win.length ≤ s.cfg.n ∧ Instr.rst ∉ [Instr.rxb 0xC5] ∧
    (runTrace [.rxb 0xC5] s).map (fun r => (passedDistances r.1, r.2.win)) = some ([123], [2, 3, 4, 5, 123]) := by
  decide

/-- A run in which nothing passes, and the run of frame F, which passes (V-CS-1): the two sides of the statement. -/
theorem witness_UnavailableIffNothingAcceptedSinceRst :
    State.reset.cfg.wf = true ∧ nextOf (exec .rst (inHalted [7])) = some State.reset ∧
    Instr.rst ∉ [Instr.rxb 0x59, .tmo] ∧ Instr.rst ∉ frameF.map Instr.rxb ∧
    (runTrace [.rxb 0x59, .tmo] State.reset).map (fun r => (passedDistances r.1, latest r.2.win)) = some ([], none) ∧
    (runTrace (frameF.map Instr.rxb) State.reset).map (fun r => (passedDistances r.1, latest r.2.win)) =
      some ([123], some 123) := by decide

/-- F is valid; bytes 0 and 8 are changed. -/
theorem witness_OneChangedByteInvalidatesAFrame :
    frameF.length = 9 ∧ validFrame Config.default frameF = true ∧ (0x5A : Byte) ≠ byteAt frameF 0 ∧
    (0xC6 : Byte) ≠ byteAt frameF 8 := by decide

/-- A frame, and 9 bytes whose first pair is not the sync word, with and without a later pair that is (V-CS-2). -/
theorem witness_NineBytesYieldASampleIffValid :
    State.reset.resetSeen = true ∧ State.reset.phase = .pair0 ∧ frameF.length = 9 ∧
    syncMatches Config.default (byteAt frameF 0) (byteAt frameF 1) = true ∧
    syncMatches Config.default (byteAt ([0x5A] ++ frameF.drop 1) 0) (byteAt ([0x5A] ++ frameF.drop 1) 1) = false ∧
    syncMatches Config.default (byteAt [1, 2, 3, 4, 5, 6, 0x59, 0x59, 9] 6) (byteAt [1, 2, 3, 4, 5, 6, 0x59, 0x59, 9] 7) =
      true := by decide

theorem witness_ValidFrameIsDelivered :
    State.reset.resetSeen = true ∧ State.reset.phase = .pair0 ∧ frameF.length = 9 ∧
    validFrame State.reset.cfg frameF = true := by decide

theorem witness_ShortReadDropsThePartialFrame :
    State.reset.resetSeen = true ∧ State.reset.phase = .pair0 ∧ ([] : List Byte).length ≤ 6 ∧ bodyF.length ≤ 6 := by
  decide

/-- The pairs of program P2: a frame that starts at the second byte of a pair. -/
theorem witness_MismatchedPairsAreDroppedWhole :
    State.reset.resetSeen = true ∧ State.reset.phase = .pair0 ∧
    ∀ p ∈ ([(0x00, 0x59), (0x59, 0x0A), (0x00, 0x64), (0x00, 0xC8), (0x08, 0xF0)] : List (Byte × Byte)),
      syncMatches State.reset.cfg p.1 p.2 = false := by
  refine ⟨rfl, rfl, fun p hp => ?_⟩
  simp only [List.mem_cons, List.not_mem_nil, or_false] at hp
  rcases hp with rfl | rfl | rfl | rfl | rfl <;> decide

theorem witness_ErrorsNeverReachTheAggregator :
    (nextOf (exec (.rxb 0xC4) (inBody bodyF))).map (fun t => isError t.out.ev) = some true ∧
    (nextOf (exec .ioerr (withWin [7]))).map (fun t => isError t.out.ev) = some true := by decide

theorem witness_SyncerrIsRaisedByExactlyTwoCases :
    (nextOf (exec .tmo (inPair1 0x59))).map (fun t => t.out.ev) = some .syncErr ∧
    (nextOf (exec (.rxb 0x58) (inPair1 0x59))).map (fun t => t.out.ev) = some .syncErr := by decide

theorem witness_OtherErrorsAreRaisedByTheirOneCause :
    (nextOf (exec .tmo (inBody []))).map (fun t => t.out.ev) = some .short ∧
    (nextOf (exec (.rxb 0xC4) (inBody bodyF))).map (fun t => t.out.ev) = some .csumErr ∧
    (nextOf (exec .ioerr (inBody []))).map (fun t => t.out.ev) = some .ioErr ∧
    Instr.rst ∉ [Instr.rxb 0x59] ∧ (runTrace [.rxb 0x59] (inHalted [])).isSome = true := by decide

theorem witness_RecoveryIsResynchronization :
    StateInv (inPair1 0x59) ∧ StateInv (inBody bodyF) ∧
    (nextOf (exec .tmo (inPair1 0x59))).map (fun t => t.out.ev) = some .syncErr ∧
    (nextOf (exec .tmo (inBody bodyF))).map (fun t => t.out.ev) = some .short ∧
    (nextOf (exec (.rxb 0xC4) (inBody bodyF))).map (fun t => t.out.ev) = some .csumErr := by decide

/-- PASS, LOW (strength 49), and an event with neither. -/
theorem witness_SampleComesWithPassOrLow :
    (nextOf (exec (.rxb 0xC5) (inBody bodyF))).map (fun t => t.out.ev) = some .pass ∧
    (nextOf (exec (.rxb 0x2E) (inBody [0x7B, 0x00, 0x31, 0x00, 0xC8, 0x08]))).map (fun t => t.out.ev) = some .low ∧
    (nextOf (exec .tmo State.reset)).map (fun t => t.out.ev) = some .none := by decide

theorem witness_OnlyRxbAndRstWriteTheWindow :
    (nextOf (exec (.rxb 0xC5) (inBody bodyF))).map (fun t => (t.win, t.smp)) = some ([123], ⟨123, 200, 2248, 200⟩) ∧
    (inBody bodyF).win = [] ∧ (inBody bodyF).smp = Sample.zero := by decide

theorem witness_NoTwoSamplesInARow :
    ((nextOf (exec (.rxb 0xC5) (inBody bodyF))).bind fun t =>
      (nextOf (exec (.rxb 0x59) t)).map fun _ => t.out.sample.isSome) = some true := by decide

theorem witness_RefusalSetsAMarkThatStays :
    refusalOf (stepUnder Config.default 0x600 State.reset) = some (.reserved 0x600) ∧
    { State.reset with refused := true }.refused = true := by decide

/-- A step that keeps HALTED, and one that leaves it. -/
theorem witness_StepKeepsTheInvariant :
    StateInv (inBody bodyF) ∧ StateInv (inHalted [7]) ∧
    (nextOf (step ((inBody bodyF).present 0x0C5))).isSome = true ∧
    (nextOf (step ((inHalted [7]).present 0x500))).map (fun t => t.phase) = some .pair0 := by decide

theorem witness_ReadersNeverDisturbTheDecoder :
    (runTrace [.rdstat, .rxb 0xC5, .rdavg] (inBody bodyF)).isSome = true := by decide

theorem witness_EveryInterleavingOfReadsEndsAlike :
    interleaves [.rxb 0xC5, .tmo] [.rdstat, .rdavg] [] [.rdstat, .rxb 0xC5, .rdavg, .tmo] = true ∧
    (runTrace [.rdstat, .rxb 0xC5, .rdavg, .tmo] (inBody bodyF)).isSome = true := by decide

theorem witness_RunningWordsIsRunningEvents : State.reset.cfg.wf = true ∧ State.reset.pending = [] := by decide

theorem witness_EdgePriority :
    (PortsIn.mk true true 0 true true).rst = true ∧ (PortsIn.mk false true 0 true true).rxError = true ∧
    (PortsIn.mk false true 0 true false).rxValid = true ∧ (PortsIn.mk false false 0 true false).rxTimeout = true ∧
    (PortsIn.mk false false 0 false false).rxTimeout = false := by decide

theorem witness_EdgeAppliesAtMostOneEvent :
    State.reset.cfg.wf = true ∧ State.reset.resetSeen = true ∧
    edgeEvent ⟨false, true, 0x59, true, false⟩ = some (.rxb 0x59) ∧
    edgeEvent ⟨false, false, 0x59, false, false⟩ = none := by decide

theorem witness_ReadsSampleTheOutputPorts :
    (withWin [7]).resetSeen = true ∧ (withWin [7]).cfg.aggPresent = true ∧
    (portsOut (withWin [])).map (fun q => q.avgValid) = some false := by decide

end Sys2Proof.Tests
end

section
/-! The step by the word it takes, the refusals of each event, and the statements of spec/00_scope.md. -/

namespace Sys2Proof.Machine

open Sys2Proof Sys2Proof.Safety

/-! ## Results and guards -/

/-- R15: JFD has no fault outcome. -/
theorem result_ne_fault (r : Result) (f : Fault) : r ≠ .fault f := nomatch f

/-- The refusal of a result, the refusal looked for on the left (as `next_inj` has it for states). -/
theorem refused_inj {a b : Refusal} : (Host.Outcome.refused a : Result) = .refused b ↔ b = a :=
  ⟨fun h => (Host.Outcome.refused.inj h).symm, fun h => h ▸ rfl⟩

theorem underConfig_of_wf {s : State} (h : s.cfg.wf = true) (r : Result) : underConfig s r = r :=
  if_pos h

/-- The admission guard refuses before the first RST, and after it hands on the guarded refusal. -/
theorem afterReset_refused {s : State} {r : Result} {e : Refusal} :
    afterReset s r = .refused e ↔
      (s.resetSeen = false ∧ e = .beforeReset) ∨ (s.resetSeen = true ∧ r = .refused e) := by
  unfold afterReset
  cases s.resetSeen <;> simp [-Host.Outcome.refused.injEq, refused_inj]

/-- The guard of an event that has a next state: it refuses before the first RST and nowhere else. -/
theorem afterReset_of_next_refused {s t : State} {e : Refusal} :
    afterReset s (.next t) = .refused e ↔ s.resetSeen = false ∧ e = .beforeReset := by
  simp [afterReset_refused]

/-! ## Decoding -/

/-- R86: the decoder names the very word it refuses. -/
theorem eq_of_decode_reserved {w w' : EventWord} (h : decode w = .reserved w') : w' = w := by
  unfold decode at h
  dsimp only at h
  repeat' split at h
  all_goals cases h
  rfl

/-- A table word decodes to an event only through the 12-bit decoder. -/
theorem decode_of_decodeTableWord {nbits w : Nat} {i : Instr} (h : decodeTableWord nbits w = some i) :
    decode (tableWord nbits w) = .event i := by
  unfold decodeTableWord at h
  split at h
  · cases hd : decode (tableWord nbits w) <;> simp_all
  · cases h

/-! ## The step, by the next pending word -/

theorem takeWord_of_pending {s : State} {w : EventWord} {rest : List EventWord} (h : s.pending = w :: rest) :
    takeWord s = some (w, { s with pending := rest }) := by
  rw [takeWord, h]

theorem step_of_event {s : State} {w : EventWord} {rest : List EventWord} {i : Instr}
    (hp : s.pending = w :: rest) (hd : decode w = .event i) :
    step s = underConfig s (exec i { s with pending := rest }) := by
  simp only [step, takeWord_of_pending hp, hd]

theorem step_of_reserved {s : State} {w w' : EventWord} {rest : List EventWord}
    (hp : s.pending = w :: rest) (hd : decode w = .reserved w') :
    step s = underConfig s (.refused (.reserved w')) := by
  simp only [step, takeWord_of_pending hp, hd]

/-- A presented word is taken off again by the step that runs it. -/
theorem step_present_of_event {s : State} {w : EventWord} {i : Instr} (h : decode w = .event i) :
    step (s.present w) = underConfig s (exec i s) :=
  step_of_event (s := s.present w) rfl h

theorem step_present_of_reserved {s : State} {w w' : EventWord} (h : decode w = .reserved w') :
    step (s.present w) = underConfig s (.refused (.reserved w')) :=
  step_of_reserved (s := s.present w) rfl h

/-! ## The spec's step under a configuration (R14) -/

theorem stepUnder_of_ne {cfg : Config} {s : State} (h : cfg ≠ s.cfg) (w : EventWord) :
    stepUnder cfg w s = .refused .configChanged :=
  if_neg h

theorem stepUnder_self (w : EventWord) (s : State) : stepUnder s.cfg w s = step (s.present w) :=
  if_pos rfl

theorem stepUnder_of_event {s : State} {w : EventWord} {i : Instr} (hwf : s.cfg.wf = true)
    (h : decode w = .event i) : stepUnder s.cfg w s = exec i s := by
  rw [stepUnder_self, step_present_of_event h, underConfig_of_wf hwf]

theorem stepUnder_of_reserved {s : State} {w w' : EventWord} (hwf : s.cfg.wf = true)
    (h : decode w = .reserved w') : stepUnder s.cfg w s = .refused (.reserved w') := by
  rw [stepUnder_self, step_present_of_reserved h, underConfig_of_wf hwf]

/-- A step under a configuration that answers a next state ran the event of its word. -/
theorem exec_of_stepUnder_next {cfg : Config} {w : EventWord} {s t : State} (h : stepUnder cfg w s = .next t) :
    ∃ i, decode w = .event i ∧ exec i s = .next t := by
  obtain rfl | hne := Decidable.em (cfg = s.cfg)
  · rw [stepUnder_self] at h
    cases hd : decode w with
    | event i =>
      rw [step_present_of_event hd, underConfig_next] at h
      exact ⟨i, rfl, h.2⟩
    | reserved w' =>
      rw [step_present_of_reserved hd, underConfig_next] at h
      cases h.2
  · rw [stepUnder_of_ne hne] at h
    cases h

/-! ## Which events are refused, and which complete -/

/-- R15: an event is refused before the first RST unless it is RST (R212), and after it only as RDAVG without an
aggregator (R148). -/
theorem exec_refused_iff {i : Instr} {s : State} {r : Refusal} :
    exec i s = .refused r ↔
      (s.resetSeen = false ∧ i ≠ .rst ∧ r = .beforeReset) ∨
      (s.resetSeen = true ∧ i = .rdavg ∧ s.cfg.aggPresent = false ∧ r = .aggregatorAbsent) := by
  cases i with
  | rxb b => simp [exec, execRxb, afterReset_of_next_refused]
  | tmo => simp [exec, execTmo, afterReset_of_next_refused]
  | ioerr => simp [exec, execIoerr, afterReset_of_next_refused]
  | rdavg =>
    rw [exec, execRdavg, afterReset_refused]
    cases s.cfg.aggPresent <;> simp [-Host.Outcome.refused.injEq, refused_inj]
  | rdstat => simp [exec, execRdstat, afterReset_of_next_refused]
  | rst => simp [exec, execRst]

/-- R15: admission is the condition for a next state. -/
theorem admitted_iff_exec_next (i : Instr) (s : State) :
    admitted i s = true ↔ ∃ t, exec i s = .next t := by
  cases i with
  | rxb b => simp [admitted, execRxb_next]
  | tmo => simp [admitted, execTmo_next]
  | ioerr => simp [admitted, execIoerr_next]
  | rdavg => simp [admitted, execRdavg_next]
  | rdstat => simp [admitted, execRdstat_next]
  | rst => simp [admitted, execRst_next]

/-! ## The refusal mark (R16) -/

theorem offer_of_refused {cfg : Config} {w : EventWord} {s : State} {r : Refusal}
    (h : stepUnder cfg w s = .refused r) : offer cfg w s = { s with refused := true } := by
  rw [offer, h, afterStep]

theorem offer_of_next {cfg : Config} {w : EventWord} {s t : State} (h : stepUnder cfg w s = .next t) :
    offer cfg w s = t := by
  rw [offer, h, afterStep]

/-- An offered word leaves the mark where it is set: a completed event does not write it, a refusal sets it. -/
theorem offer_keeps_mark {cfg : Config} {w : EventWord} {s : State} (h : s.refused = true) :
    (offer cfg w s).refused = true := by
  cases hs : stepUnder cfg w s with
  | next t =>
    obtain ⟨i, -, hi⟩ := exec_of_stepUnder_next hs
    obtain ⟨-, hmark, -⟩ := exec_keeps hi
    rw [offer_of_next hs, hmark, h]
  | fault f => nomatch f
  | refused r => rw [offer_of_refused hs]

/-- R16: the mark stays for the rest of the run. -/
theorem runOffered_keeps_mark (ws : List (Config × EventWord)) {s : State} (h : s.refused = true) :
    (runOffered ws s).2.refused = true := by
  induction ws generalizing s with
  | nil => exact h
  | cons cw rest ih => exact ih (offer_keeps_mark h)

/-- R223: a run that ends with the mark has no observation. -/
theorem observeFrom_eq_none {s : State} {ws : List (Config × EventWord)}
    (h : (runOffered ws s).2.refused = true) : observeFrom s ws = none :=
  if_pos h

/-! ## The obligations -/

/-- Settles O10: a word is refused for the configuration, by the decoder, or by the event it decodes to. -/
theorem stepsAreRefusedForExactlyFourCauses : Obligations.StepsAreRefusedForExactlyFourCauses := by
  refine fun cfg w s hwf => ⟨result_ne_fault _, fun r => ?_⟩
  obtain rfl | hne := Decidable.em (cfg = s.cfg)
  · cases hd : decode w with
    | event i =>
      rw [stepUnder_of_event hwf hd, exec_refused_iff]
      simp
    | reserved w' =>
      obtain rfl := eq_of_decode_reserved hd
      rw [stepUnder_of_reserved hwf hd, refused_inj]
      simp
  · rw [stepUnder_of_ne hne, refused_inj]
    simp [hne]

/-- Settles O11, event by event. -/
theorem exactlyTheAdmittedEventsComplete : Obligations.ExactlyTheAdmittedEventsComplete :=
  admitted_iff_exec_next

/-- Settles O30 from the bound of 65535 per element and the capacity bound of R214. -/
theorem windowSumFitsItsWidth : Obligations.WindowSumFitsItsWidth := by
  intro cfg win hwf hlen
  have hn : cfg.n ≤ 15 := by simp_all [Config.wf]
  have hsum : winSum win ≤ cfg.n * 65535 := Nat.le_trans (winSum_le win) (Nat.mul_le_mul_right _ hlen)
  refine ⟨hsum, ?_, fun h5 => ?_⟩
  · calc winSum win ≤ cfg.n * 65535 := hsum
      _ ≤ 15 * 65535 := Nat.mul_le_mul_right _ hn
      _ < 2 ^ 20 := by decide
  · calc winSum win ≤ cfg.n * 65535 := hsum
      _ = 5 * 65535 := by rw [h5]
      _ < 2 ^ 19 := by decide

/-- Settles O50, by induction on the offered words. -/
theorem refusalSetsAMarkThatStays : Obligations.RefusalSetsAMarkThatStays := by
  refine ⟨fun cfg w s r h => by rw [offer_of_refused h], fun ws s h => ?_⟩
  have hmark := runOffered_keeps_mark ws h
  exact ⟨hmark, observeFrom_eq_none hmark⟩

/-- Settles O5. -/
theorem stepRunsTheDecodedEvent : Obligations.StepRunsTheDecodedEvent := by
  intro s w rest i hwf hp hd
  rw [step_of_event hp hd, underConfig_of_wf hwf]

/-- Settles O6: the word is presented as the 12-bit word that the table word decodes through. -/
theorem presentedWordIsRunNext : Obligations.PresentedWordIsRunNext := by
  intro s nbits w i hwf h
  rw [State.withFetchWord, step_present_of_event (decode_of_decodeTableWord h), underConfig_of_wf hwf]

end Sys2Proof.Machine
end

section
/-! The state's invariant (R36) over operations, events and steps, the fields of STATUS (R31), what an event does to the
window and the sample registers, and the statements of spec/10_state.md. -/

namespace Sys2Proof.Machine

open Sys2Proof Sys2Proof.Safety

/-- R214, as a statement about the capacity. -/
theorem config_wf_iff {c : Config} : c.wf = true ↔ 1 ≤ c.n ∧ c.n ≤ 15 := by
  simp [Config.wf]

/-! ## The invariant over the operations

`StateInv` speaks of the configuration, the phase, the body and the window alone. -/

theorem stateInv_answer {s : State} (h : StateInv s) (r : ReadWord) : StateInv (s.answer r) := h

theorem stateInv_idle {s : State} (h : StateInv s) : StateInv (idle s) := h

/-- R36, invariant 2. -/
theorem body_nil_of_stateInv {s : State} (h : StateInv s) (hp : s.phase ≠ .body) : s.body = [] :=
  h.2.1 hp

/-- A change of phase that leaves no body byte and does not touch the window. -/
theorem stateInv_of_body_nil {s t : State} (h : StateInv s) (hbody : t.body = [])
    (hwin : t.win = s.win) (hcfg : t.cfg = s.cfg) : StateInv t := by
  obtain ⟨-, -, hlen, hagg⟩ := h
  refine ⟨by simp [hbody], fun _ => hbody, ?_, ?_⟩
  · rwa [hwin, hcfg]
  · rwa [hwin, hcfg]

theorem stateInv_pushBody {s : State} (h : StateInv s) (hp : s.phase = .body) (hlen : s.body.length < 6)
    (b : Byte) : StateInv (pushBody b s) := by
  obtain ⟨-, -, hwin⟩ := h
  refine ⟨?_, fun hne => absurd hp hne, hwin⟩
  rw [pushBody_body, List.length_append]
  exact hlen

/-- ACCEPT evicts where the window is full (R142), and happens only where the aggregator is built (R148). -/
theorem stateInv_acceptIfPassing {s : State} (hn : 1 ≤ s.cfg.n) (h : StateInv s) (x : Sample) :
    StateInv (acceptIfPassing x s) := by
  unfold acceptIfPassing
  split
  · next hc =>
    obtain ⟨hbody, hphase, hwin, -⟩ := h
    obtain ⟨-, hagg⟩ := Bool.and_eq_true_iff.mp hc
    exact ⟨hbody, hphase, accept_length_le hn hwin, fun hne => absurd (hagg.symm.trans hne) (by decide)⟩
  · exact h

theorem stateInv_resetState (s : State) : StateInv (resetState s) := by
  simp [StateInv]

theorem stateInv_resetWith (cfg : Config) : StateInv (State.resetWith cfg) := by
  simp [StateInv, State.resetWith]

/-! ## The invariant over events and steps -/

/-- R36, invariants 1 to 4: every event keeps them, where the window has a capacity (R214). -/
theorem exec_keeps_stateInv {i : Instr} {s t : State} (hn : 1 ≤ s.cfg.n) (hinv : StateInv s)
    (h : exec i s = .next t) : StateInv t := by
  have hnil : s.phase ≠ .body → s.body = [] := body_nil_of_stateInv hinv
  rcases exec_cases h with ⟨-, rfl⟩ | ⟨-, ⟨r, rfl, -⟩ | ⟨rfl, -⟩ | ⟨b, -, hp, rfl⟩ | ⟨b, -, -, -, rfl⟩ |
    ⟨b, -, hp, -, rfl⟩ | ⟨b, -, hp, hlen, rfl⟩ | ⟨b, -, -, -, -, rfl⟩ | ⟨b, -, -, -, -, rfl⟩ |
    ⟨-, hp, rfl⟩ | ⟨-, -, rfl⟩ | ⟨-, -, rfl⟩⟩
  · exact stateInv_resetState s
  · exact stateInv_answer hinv r
  · exact stateInv_idle hinv
  · exact stateInv_of_body_nil hinv (hnil (by simp [hp])) rfl rfl
  · exact stateInv_of_body_nil hinv (enterBody_body s) rfl rfl
  · exact stateInv_of_body_nil hinv (hnil (by simp [hp])) rfl rfl
  · exact stateInv_pushBody hinv hp hlen b
  · exact stateInv_of_body_nil hinv (dropBody_body s) rfl rfl
  · apply stateInv_acceptIfPassing
    · exact hn
    · exact stateInv_of_body_nil hinv rfl rfl rfl
  · exact stateInv_of_body_nil hinv (hnil (by simp [hp])) rfl rfl
  · exact stateInv_of_body_nil hinv (dropBody_body s) rfl rfl
  · exact stateInv_of_body_nil hinv (halt_body s) rfl rfl

/-- R36, invariant 5 (R120): in HALTED every event but RST only answers or idles. -/
theorem eq_rst_of_exec_leaves_halted {i : Instr} {s t : State} (h : exec i s = .next t)
    (hs : s.phase = .halted) (ht : t.phase ≠ .halted) : i = .rst := by
  rcases exec_cases h with ⟨hi, -⟩ | ⟨-, hcases⟩
  · exact hi
  · simp only [hs, reduceCtorEq, false_and, and_false, exists_const, false_or, or_false, ne_eq,
      not_true_eq_false] at hcases
    rcases hcases with ⟨r, rfl, -⟩ | ⟨rfl, -⟩
    · exact absurd hs ht
    · exact absurd hs ht

/-- What a step that answers a next state did: it idled without a word, or ran the event of the next one (R14). -/
theorem step_next_cases {s t : State} (h : step s = .next t) :
    s.cfg.wf = true ∧
      ((s.pending = [] ∧ t = idle s) ∨
        ∃ w rest i, s.pending = w :: rest ∧ decode w = .event i ∧ exec i { s with pending := rest } = .next t) := by
  cases hp : s.pending with
  | nil =>
    rw [step, takeWord, hp, underConfig_next, next_inj] at h
    exact ⟨h.1, .inl ⟨rfl, h.2⟩⟩
  | cons w rest =>
    cases hd : decode w with
    | event i =>
      rw [step_of_event hp hd, underConfig_next] at h
      exact ⟨h.1, .inr ⟨w, rest, i, rfl, hd, h.2⟩⟩
    | reserved w' =>
      rw [step_of_reserved hp hd, underConfig_next] at h
      cases h.2

/-! ## The fields of STATUS (R31)

From the low end, each lemma skips the fields below its own. -/

theorem statusWord_ioFault (s : State) :
    (statusWord s).extractLsb' 0 1 = BitVec.ofBool (decide (s.phase = .halted)) :=
  BitVec.extractLsb'_append_eq_right

theorem statusWord_avgValid (s : State) :
    (statusWord s).extractLsb' 1 1 = BitVec.ofBool (!s.win.isEmpty) := by
  rw [statusWord, BitVec.extractLsb'_append_eq_of_le (by decide)]
  exact BitVec.extractLsb'_append_eq_right

theorem statusWord_phase (s : State) : (statusWord s).extractLsb' 2 2 = s.phase.code := by
  unfold statusWord
  iterate 2 rw [BitVec.extractLsb'_append_eq_of_le (by decide)]
  exact BitVec.extractLsb'_append_eq_right

theorem statusWord_bodyCount (s : State) :
    (statusWord s).extractLsb' 4 3 = BitVec.ofNat 3 (bodyCount s) := by
  unfold statusWord
  iterate 3 rw [BitVec.extractLsb'_append_eq_of_le (by decide)]
  exact BitVec.extractLsb'_append_eq_right

theorem statusWord_bit7 (s : State) : (statusWord s).extractLsb' 7 1 = 0#1 := by
  unfold statusWord
  iterate 4 rw [BitVec.extractLsb'_append_eq_of_le (by decide)]
  exact BitVec.extractLsb'_append_eq_right

theorem statusWord_winCount (s : State) :
    (statusWord s).extractLsb' 8 4 = BitVec.ofNat 4 s.win.length := by
  unfold statusWord
  iterate 5 rw [BitVec.extractLsb'_append_eq_of_le (by decide)]
  exact BitVec.extractLsb'_append_eq_right

theorem statusWord_bits15to12 (s : State) : (statusWord s).extractLsb' 12 4 = 0#4 := by
  unfold statusWord
  iterate 5 rw [BitVec.extractLsb'_append_eq_of_le (by decide)]
  exact BitVec.extractLsb'_append_eq_left

/-- R31: under the invariant the 3-bit BODY_COUNT does not wrap. -/
theorem statusWord_bodyCount_toNat {s : State} (h : StateInv s) :
    ((statusWord s).extractLsb' 4 3).toNat = bodyCount s := by
  have hle : bodyCount s ≤ 6 := by
    unfold bodyCount
    split
    · exact h.1
    · omega
  rw [statusWord_bodyCount, BitVec.toNat_ofNat]
  exact Nat.mod_eq_of_lt (by omega)

/-- R31, R214: under the invariant and a JFD configuration the 4-bit WIN_COUNT does not wrap. -/
theorem statusWord_winCount_toNat {s : State} (h : StateInv s) (hwf : s.cfg.wf = true) :
    ((statusWord s).extractLsb' 8 4).toNat = s.win.length := by
  obtain ⟨-, -, hlen, -⟩ := h
  obtain ⟨-, hn⟩ := config_wf_iff.mp hwf
  rw [statusWord_winCount, BitVec.toNat_ofNat]
  exact Nat.mod_eq_of_lt (by omega)

theorem statusWord_ioFault_iff (s : State) : (statusWord s).extractLsb' 0 1 = 1#1 ↔ s.phase = .halted := by
  rw [statusWord_ioFault]
  by_cases h : s.phase = .halted <;> simp [h]

theorem statusWord_avgValid_iff (s : State) : (statusWord s).extractLsb' 1 1 = 1#1 ↔ s.win ≠ [] := by
  rw [statusWord_avgValid]
  cases s.win <;> simp

/-- R35: STATUS reads 0 after RST. -/
theorem statusWord_resetState (s : State) : statusWord (resetState s) = 0 := by
  simp [statusWord, bodyCount, Phase.code]

/-- The 2-bit codes of R21 tell the phases apart. -/
theorem phase_code_inj {p q : Phase} : p.code = q.code ↔ p = q := by
  cases p <;> cases q <;> decide

/-- R30. -/
theorem avgValid_iff (s : State) : avgValid s = true ↔ s.win ≠ [] := by
  unfold avgValid latest
  cases s.win <;> simp

/-! ## Which events write the window and the sample registers -/

/-- R24, R28, R112, R162: RST writes them, and so does the byte that completes a valid frame; no other event does. -/
theorem exec_win_smp_cases {i : Instr} {s t : State} (h : exec i s = .next t) :
    i = .rst ∨ ((∃ b, i = .rxb b) ∧ s.phase = .body ∧ t.out.sample.isSome = true) ∨
      (t.win = s.win ∧ t.smp = s.smp) := by
  rcases exec_cases h with ⟨hi, -⟩ | ⟨-, ⟨r, rfl, -⟩ | ⟨rfl, -⟩ | ⟨b, -, -, rfl⟩ | ⟨b, -, -, -, rfl⟩ |
    ⟨b, -, -, -, rfl⟩ | ⟨b, -, -, -, rfl⟩ | ⟨b, -, -, -, -, rfl⟩ | ⟨b, hi, hp, -, -, rfl⟩ |
    ⟨-, -, rfl⟩ | ⟨-, -, rfl⟩ | ⟨-, -, rfl⟩⟩
  · exact .inl hi
  -- every case but the valid frame leaves both fields as they are
  any_goals exact .inr (.inr ⟨rfl, rfl⟩)
  · exact .inr (.inl ⟨⟨b, hi⟩, hp, by rw [acceptIfPassing_out, publish_out]; rfl⟩)

/-! ## The obligations -/

/-- Settles O51: the step's event keeps the invariant (`exec_keeps_stateInv`) and leaves HALTED only as RST; the
invariant does not see the word that is taken off, and the checked configuration gives the window its capacity. -/
theorem stepKeepsTheInvariant : Obligations.StepKeepsTheInvariant := by
  intro s t hinv h
  obtain ⟨hwf, ⟨-, rfl⟩ | ⟨w, rest, i, hp, hd, hi⟩⟩ := step_next_cases h
  · exact ⟨stateInv_idle hinv, fun hs ht => absurd hs ht⟩
  · obtain ⟨hn, -⟩ := config_wf_iff.mp hwf
    refine ⟨exec_keeps_stateInv (s := { s with pending := rest }) hn hinv hi, fun hs ht => ?_⟩
    obtain rfl := eq_rst_of_exec_leaves_halted hi hs ht
    exact ⟨w, rest, hp, hd⟩

/-- Settles O25, field by field. -/
theorem rdstatReturnsTheStatusFields : Obligations.RdstatReturnsTheStatusFields := by
  intro s hseen hinv hwf
  refine ⟨statusWord s, execRdstat_next.mpr ⟨hseen, rfl⟩, ?_, ?_, ?_, statusWord_bodyCount_toNat hinv,
    statusWord_bit7 s, statusWord_winCount_toNat hinv hwf, statusWord_bits15to12 s⟩
  · rw [statusWord_ioFault]
    cases s.phase <;> rfl
  · rw [statusWord_avgValid]
    cases s.win <;> rfl
  · rw [statusWord_phase]
    cases s.phase <;> rfl

/-- Settles O26: each identity is one between the phase and its code, or about the window being empty. -/
theorem statusFieldIdentities : Obligations.StatusFieldIdentities := by
  intro s hinv hwf
  refine ⟨?_, ?_, ?_, ?_⟩
  · rw [statusWord_ioFault_iff, statusWord_phase]
    exact (phase_code_inj (q := .halted)).symm
  · rw [statusWord_avgValid_iff, statusWord_winCount_toNat hinv hwf]
    exact List.length_pos_iff.symm
  · rw [statusWord_avgValid_iff, avgValid_iff]
  · intro hcount
    rw [statusWord_phase, show 2#2 = Phase.body.code from rfl, phase_code_inj]
    refine Decidable.byContradiction fun hp => hcount ?_
    rw [statusWord_bodyCount, bodyCount, if_neg hp]

/-- Settles O48. -/
theorem onlyRxbAndRstWriteTheWindow : Obligations.OnlyRxbAndRstWriteTheWindow := by
  intro i s t h
  obtain ⟨hcfg, hrefused, -⟩ := exec_keeps h
  refine ⟨hcfg, hrefused, fun hchanged => ?_⟩
  rcases exec_win_smp_cases h with hrst | hrxb | ⟨hwin, hsmp⟩
  · exact .inl hrst
  · exact .inr hrxb
  · exact absurd hchanged (by simp [hwin, hsmp])

/-- Settles O13. -/
theorem rstSetsEveryElement : Obligations.RstSetsEveryElement :=
  fun s => ⟨resetState s, execRst_next.mpr rfl, rfl, statusWord_resetState s, rfl, rfl⟩

/-- Settles O52. -/
theorem resetHasTheInvariant : Obligations.ResetHasTheInvariant :=
  ⟨stateInv_resetWith, stateInv_resetWith Config.default, by decide⟩

end Sys2Proof.Machine
end

section
/-! A read changes the outputs alone and no event reads them, RST forgets all but three fields, a frame's fields are
little-endian: the statements of spec/20_memory.md. -/

namespace Sys2Proof.Machine

open Sys2Proof Sys2Proof.Safety

/-! ## The last outputs and the reads (R62) -/

/-- R14: the outputs of the step before are no state, so an event's next state does not depend on them. -/
theorem exec_next_of_out {i : Instr} {s t : State} (h : exec i s = .next t) (o : Output) :
    exec i { s with out := o } = .next t := by
  obtain ⟨-, -, hpending⟩ := exec_keeps h
  calc exec i { s with out := o }
      = .next { t with pending := s.pending } := by rw [exec_of_pending_out i s s.pending o, h]
    _ = .next t := by rw [← hpending]

/-- The reader's events are the two reads (R195). -/
theorem agentOf_eq_reader {i : Instr} : agentOf i = .reader ↔ i = .rdavg ∨ i = .rdstat := by
  cases i <;> simp [agentOf]

/-- R61, R62: a reader's event only answers a word. -/
theorem exec_reader_next {i : Instr} {s t : State} (hi : agentOf i = .reader) (h : exec i s = .next t) :
    ∃ r, t = s.answer r := by
  obtain rfl | rfl := agentOf_eq_reader.mp hi
  · obtain ⟨-, -, rfl⟩ := execRdavg_next.mp h
    exact ⟨_, rfl⟩
  · obtain ⟨-, rfl⟩ := execRdstat_next.mp h
    exact ⟨_, rfl⟩

theorem passedDistances_cons (o : Output) (outs : List Output) :
    passedDistances (o :: outs) = (passedDistance o).toList ++ passedDistances outs := by
  unfold passedDistances
  rw [List.filterMap_cons]
  cases passedDistance o <;> rfl

theorem passedDistances_answer_cons (s : State) (r : ReadWord) (outs : List Output) :
    passedDistances ((s.answer r).out :: outs) = passedDistances outs :=
  passedDistances_cons _ outs

/-- R62, R197: a run without its reads, from any last outputs: a read's step only replaces the last outputs, and the
events after it do not read them. -/
theorem runTrace_filter_reads {is : List Instr} {s t : State} {outs : List Output}
    (h : runTrace is s = some (outs, t)) (o : Output) :
    ∃ outs' t', runTrace (is.filter fun i => agentOf i != .reader) { s with out := o } = some (outs', t') ∧
      t = { t' with out := t.out } ∧ passedDistances outs' = passedDistances outs := by
  induction is generalizing s outs o with
  | nil =>
    obtain ⟨rfl, rfl⟩ : [] = outs ∧ s = t := by simpa [runTrace] using h
    exact ⟨[], _, rfl, rfl, rfl⟩
  | cons i is ih =>
    obtain ⟨u, rest, t, hexec, hrun, ⟨⟩⟩ := runTrace_cons.mp h
    by_cases hread : agentOf i = .reader
    · obtain ⟨r, rfl⟩ := exec_reader_next hread hexec
      obtain ⟨outs', t', hrun', hstate, hpassed⟩ := ih hrun o
      refine ⟨outs', t', ?_, hstate, hpassed.trans (passedDistances_answer_cons s r rest).symm⟩
      rw [List.filter_cons_of_neg (by simp [hread])]
      exact hrun'
    · obtain ⟨outs', t', hrun', hstate, hpassed⟩ := ih hrun u.out
      refine ⟨u.out :: outs', t', ?_, hstate, ?_⟩
      · rw [List.filter_cons_of_pos (by simp [hread])]
        exact runTrace_cons.mpr ⟨u, outs', t', exec_next_of_out hexec o, hrun', rfl⟩
      · rw [passedDistances_cons, passedDistances_cons, hpassed]

/-! ## RST (R63) -/

/-- R210: RST reads no element but those it keeps. -/
theorem resetState_congr {s s' : State} (hcfg : s.cfg = s'.cfg) (hrefused : s.refused = s'.refused)
    (hpending : s.pending = s'.pending) : resetState s = resetState s' := by
  ext1 <;> simp [hcfg, hrefused, hpending]

theorem resetState_idem (s : State) : resetState (resetState s) = resetState s := rfl

/-! ## The obligations -/

/-- Settles O53, from the same last outputs. -/
theorem readersNeverDisturbTheDecoder : Obligations.ReadersNeverDisturbTheDecoder :=
  fun _ s _ _ h => runTrace_filter_reads h s.out

/-- Settles O14. -/
theorem rstForgetsThePast : Obligations.RstForgetsThePast := by
  refine ⟨fun s s' hcfg hrefused hpending => ?_, fun s t h => ?_⟩
  · exact execRst_next.mpr (resetState_congr hcfg hrefused hpending).symm
  · obtain rfl := execRst_next.mp h
    exact execRst_next.mpr (resetState_idem s).symm

/-- Settles O27: the next state is the old one with other outputs, so the read has the same next state there. -/
theorem readsChangeNothing : Obligations.ReadsChangeNothing := by
  intro i s t hi h
  obtain ⟨r, rfl⟩ := exec_reader_next (agentOf_eq_reader.mpr hi) h
  exact ⟨⟨r, rfl⟩, exec_next_of_out h _⟩

/-- Settles O34: `le16` loses nothing on each field's two bytes. -/
theorem frameFieldsAreLittleEndian : Obligations.FrameFieldsAreLittleEndian :=
  fun _ _ b2 b3 b4 b5 b6 b7 _ => ⟨le16_toNat b2 b3, le16_toNat b4 b5, le16_toNat b6 b7⟩

end Sys2Proof.Machine
end

section
/-! Decoding and encoding are inverse, the opcode table's rows, RDAVG's word, the bytes of `rxf`, and the statements of
spec/30_encoding.md. -/

namespace Sys2Proof.Machine

open Sys2Proof Sys2Proof.Safety

/-! ## The event word, by its two fields (R80) -/

theorem opField_append_dataField (w : EventWord) : opField w ++ dataField w = w :=
  BitVec.extractLsb'_append_extractLsb' (w := 4) (len := 8)

theorem opField_append (op : BitVec 4) (d : Byte) : opField (op ++ d) = op :=
  BitVec.extractLsb'_append_eq_left

theorem dataField_append (op : BitVec 4) (d : Byte) : dataField (op ++ d) = d :=
  BitVec.extractLsb'_append_eq_right

/-! ## Decode and encode are inverse (R82, R83, R86) -/

/-- R82: OP 0 is RXB, with the byte as it stands. -/
theorem decode_of_opField_zero {w : EventWord} (h : opField w = 0) : decode w = .event (.rxb (dataField w)) := by
  rw [decode, if_pos h]

theorem decode_encode (i : Instr) : decode (encode i) = .event i := by
  cases i with
  | rxb b =>
    calc decode (0#4 ++ b)
        = .event (.rxb (dataField (0#4 ++ b))) := decode_of_opField_zero (opField_append 0 b)
      _ = .event (.rxb b) := by rw [dataField_append]
  | tmo => rfl
  | ioerr => rfl
  | rdavg => rfl
  | rdstat => rfl
  | rst => rfl

/-- The word is put together again from the OP and DATA that the decoder tested. -/
theorem encode_of_decode {w : EventWord} {i : Instr} (h : decode w = .event i) : encode i = w := by
  rw [← opField_append_dataField w]
  unfold decode at h
  dsimp only at h
  split at h
  · next hop => cases h; rw [hop]; rfl
  iterate 5
    split at h
    · next hfields => obtain ⟨hop, hdata⟩ := hfields; cases h; rw [hop, hdata]; rfl
  cases h

theorem decode_eq_event_iff {w : EventWord} {i : Instr} : decode w = .event i ↔ encode i = w :=
  ⟨encode_of_decode, fun h => h ▸ decode_encode i⟩

/-- R84: a word is refused for its OP, or for DATA where its event has none. -/
theorem decode_eq_reserved_iff {w : EventWord} :
    decode w = .reserved w ↔ 6 ≤ (opField w).toNat ∨ (1 ≤ (opField w).toNat ∧ dataField w ≠ 0) := by
  unfold decode
  dsimp only
  -- the six branches that decode, each fixing OP (and DATA), and then the branch that refuses
  iterate 6
    split
    · next hfields => simp [hfields]
  refine iff_of_true rfl ?_
  bv_omega

/-! ## The opcode table -/

/-- Each event's row is in the table and is the row of the event's word. -/
theorem tableRow (i : Instr) : Laws.TableRow.Statement i := by
  cases i with
  | rxb b => exact Laws.TableRow.rxb b
  | tmo => exact Laws.TableRow.tmo
  | ioerr => exact Laws.TableRow.ioerr
  | rdavg => exact Laws.TableRow.rdavg
  | rdstat => exact Laws.TableRow.rdstat
  | rst => exact Laws.TableRow.rst

theorem rowOf_of_decode {w : EventWord} {i : Instr} (h : decode w = .event i) :
    rowOf i ∈ opcodeTable ∧ w &&& (rowOf i).mask = (rowOf i).pattern := by
  obtain ⟨hmem, hmatches⟩ := tableRow i
  rw [encode_of_decode h] at hmatches
  exact ⟨hmem, beq_iff_eq.mp hmatches⟩

/-- RXB's row fixes OP alone. -/
theorem opField_of_rxb_row {w : EventWord} (h : w &&& 0xF00 = 0x000) : opField w = 0 :=
  calc opField w = opField w &&& 0xF := (BitVec.and_allOnes (x := opField w)).symm
    _ = opField (w &&& 0xF00) := (BitVec.extractLsb'_and (x := w) (y := 0xF00)).symm
    _ = 0 := by rw [h]; rfl

/-- The rows of the other events fix the whole word. -/
theorem decode_of_full_row {w : EventWord} {i : Instr} (h : w &&& 0xFFF = encode i) : decode w = .event i :=
  decode_eq_event_iff.mpr (h.symm.trans BitVec.and_allOnes)

theorem exists_decode_of_row {w : EventWord} {r : OpRow} (hr : r ∈ opcodeTable) (h : w &&& r.mask = r.pattern) :
    ∃ i, decode w = .event i := by
  simp only [opcodeTable, List.mem_cons, List.not_mem_nil, or_false] at hr
  rcases hr with rfl | rfl | rfl | rfl | rfl | rfl
  · exact ⟨_, decode_of_opField_zero (opField_of_rxb_row h)⟩
  · exact ⟨.tmo, decode_of_full_row h⟩
  · exact ⟨.ioerr, decode_of_full_row h⟩
  · exact ⟨.rdavg, decode_of_full_row h⟩
  · exact ⟨.rdstat, decode_of_full_row h⟩
  · exact ⟨.rst, decode_of_full_row h⟩

/-! ## RDAVG's word (R88) -/

theorem avgWord_of_empty {s : State} (h : s.win = []) : avgWord s = 0 := by
  rw [avgWord, h]
  rfl

/-- `avg_valid` is bit 16, and the mean fits below it. -/
theorem avgWord_of_nonempty {s : State} (h : s.win ≠ []) :
    avgWord s = BitVec.ofNat 17 (0x10000 + winSum s.win / s.win.length) := by
  obtain ⟨m, hm⟩ : ∃ m, latest s.win = some m := ⟨_, if_neg (by simpa using h)⟩
  obtain ⟨-, hval⟩ := latest_toNat hm
  have hlt := m.isLt
  rw [← hval]
  refine BitVec.eq_of_toNat_eq ?_
  calc (avgWord s).toNat
      = (1#1 ++ m).toNat := by rw [avgWord, hm]
    _ = 0x10000 + m.toNat := by rw [BitVec.toNat_append, ← Nat.shiftLeft_add_eq_or_of_lt hlt]; rfl
    _ = (BitVec.ofNat 17 (0x10000 + m.toNat)).toNat := (Nat.mod_eq_of_lt (by omega)).symm

/-! ## The frame of `rxf` (R92) -/

/-- A field's two bytes in stream order are the field (R54). -/
theorem le16_lowByte_highByte (v : U16) : le16 (lowByte v) (highByte v) = v := by
  refine BitVec.eq_of_toNat_eq ?_
  rw [le16_toNat, lowByte, highByte, BitVec.extractLsb'_toNat, BitVec.extractLsb'_toNat]
  have := v.isLt
  omega

theorem rxfBytes_length (cfg : Config) (d s t : U16) (cs : Option Byte) : (rxfBytes cfg d s t cs).length = 9 := rfl

theorem rxfBytes_syncMatches (cfg : Config) (d s t : U16) (cs : Option Byte) :
    syncMatches cfg (byteAt (rxfBytes cfg d s t cs) 0) (byteAt (rxfBytes cfg d s t cs) 1) = true :=
  syncMatches_iff.mpr ⟨rfl, rfl⟩

theorem rxfBytes_fields (cfg : Config) (d s t : U16) (cs : Option Byte) :
    distanceOf (rxfBytes cfg d s t cs) = d ∧ strengthOf (rxfBytes cfg d s t cs) = s ∧
      tempRawOf (rxfBytes cfg d s t cs) = t :=
  ⟨le16_lowByte_highByte d, le16_lowByte_highByte s, le16_lowByte_highByte t⟩

/-- The byte that `rxf` computes is the checksum of the eight before it (R106). -/
theorem rxfBytes_validFrame (cfg : Config) (d s t : U16) : validFrame cfg (rxfBytes cfg d s t none) = true := by
  have hsum : byteAt (rxfBytes cfg d s t none) 8 = csum (rxfBytes cfg d s t none) := rfl
  rw [validFrame, rxfBytes_syncMatches, checksumOk, hsum, beq_self_eq_true, Bool.and_self]

/-! ## The obligations -/

/-- Settles O2: for RXB the two fields are read back, and a decoded word is put together from the fields that the
decoder tested. -/
theorem decodeEncodeRoundTrip : Obligations.DecodeEncodeRoundTrip :=
  ⟨fun i _ => decode_encode i, fun _ _ => encode_of_decode⟩

/-- Settles O3: a decoded word is its event's own word, which is of that event's row; each of
the six rows decodes. -/
theorem decodeFollowsTheOpcodeTable : Obligations.DecodeFollowsTheOpcodeTable :=
  fun _ => ⟨⟨fun ⟨i, h⟩ => ⟨rowOf i, rowOf_of_decode h⟩, fun ⟨_, hr, h⟩ => exists_decode_of_row hr h⟩,
    fun _ h => rowOf_of_decode h⟩

/-- Settles O4: what the decoder refuses, by the two fields, and what a step and an offer make of its refusal. -/
theorem reservedWordsAreRefused : Obligations.ReservedWordsAreRefused := by
  refine fun w s hwf => ⟨decode_eq_reserved_iff.symm, fun h => ?_⟩
  have hstep := stepUnder_of_reserved hwf h
  exact ⟨hstep, offer_of_refused hstep⟩

/-- Settles O24: RDAVG answers `avgWord`, whose value is known for an empty and for a non-empty window. -/
theorem rdavgReturnsTheTruncatedMean : Obligations.RdavgReturnsTheTruncatedMean := by
  refine fun s hseen => ⟨fun hagg hwin => ?_, fun hagg hwin => ?_, fun hagg => ?_⟩
  · exact execRdavg_next.mpr ⟨hseen, hagg, by rw [avgWord_of_empty hwin]; rfl⟩
  · exact execRdavg_next.mpr ⟨hseen, hagg, by rw [avgWord_of_nonempty hwin]; rfl⟩
  · exact exec_refused_iff.mpr (.inr ⟨hseen, rfl, hagg, rfl⟩)

/-- Settles O42: the frame is `rxfBytes`, whose sync word and fields do not depend on the last byte. -/
theorem rxfExpandsToAValidFrame : Obligations.RxfExpandsToAValidFrame :=
  fun cfg d s t => ⟨⟨rxfBytes cfg d s t none, rfl, rxfBytes_length .., rxfBytes_validFrame cfg d s t, rxfBytes_fields ..⟩,
    fun c => ⟨rxfBytes cfg d s t (some c), rfl, rxfBytes_length .., rxfBytes_syncMatches .., rfl, rxfBytes_fields ..⟩⟩

end Sys2Proof.Machine
end

section
/-! RXB and TMO by phase, the completed frame as one record, the checksum as a sum of bytes, runs of received bytes, and
the statements of spec/40_decoder.md. -/

namespace Sys2Proof.Machine

open Sys2Proof Sys2Proof.Safety

/-! ## RXB and TMO in a known phase (R102 to R104, R113 to R118, R120) -/

theorem receiveByte_of_pair0 {s : State} (hp : s.phase = .pair0) (b : Byte) : receiveByte b s = holdByte b s := by
  rw [receiveByte, hp]

theorem receiveByte_of_match {s : State} {b : Byte} (hp : s.phase = .pair1) (hm : syncMatches s.cfg s.h0 b = true) :
    receiveByte b s = enterBody s := by
  simp only [receiveByte, hp, hm, if_true]

theorem receiveByte_of_mismatch {s : State} {b : Byte} (hp : s.phase = .pair1)
    (hm : syncMatches s.cfg s.h0 b = false) : receiveByte b s = resync .syncErr s := by
  simp only [receiveByte, hp, hm, Bool.false_eq_true, if_false]

theorem receiveByte_of_short_body {s : State} (hp : s.phase = .body) (hlen : s.body.length < 6) (b : Byte) :
    receiveByte b s = pushBody b s := by
  simp only [receiveByte, hp, if_pos hlen]

theorem receiveByte_of_full_body {s : State} (hp : s.phase = .body) (hlen : s.body.length = 6) (b : Byte) :
    receiveByte b s = completeFrame (s.body ++ [b]) s := by
  simp only [receiveByte, hp, hlen, Nat.lt_irrefl, if_false]

theorem receiveByte_of_halted {s : State} (hp : s.phase = .halted) (b : Byte) : receiveByte b s = idle s := by
  rw [receiveByte, hp]

theorem timeOut_of_pair0 {s : State} (hp : s.phase = .pair0) : timeOut s = idle s := by
  rw [timeOut, hp]

theorem timeOut_of_pair1 {s : State} (hp : s.phase = .pair1) : timeOut s = resync .syncErr s := by
  rw [timeOut, hp]

theorem timeOut_of_body {s : State} (hp : s.phase = .body) : timeOut s = resync .short (dropBody s) := by
  rw [timeOut, hp]

theorem timeOut_of_halted {s : State} (hp : s.phase = .halted) : timeOut s = idle s := by
  rw [timeOut, hp]

theorem exec_rxb {s t : State} {b : Byte} (hseen : s.resetSeen = true) (h : receiveByte b s = t) :
    exec (.rxb b) s = .next t :=
  execRxb_next.mpr ⟨hseen, h.symm⟩

theorem exec_tmo {s t : State} (hseen : s.resetSeen = true) (h : timeOut s = t) : exec .tmo s = .next t :=
  execTmo_next.mpr ⟨hseen, h.symm⟩

/-! ## The temperature (R109, R110) -/

/-- No 17-bit wrap: `temp_raw` is below 2^16 and 2048 fits below the sign bit. -/
theorem tempQ3Of_toInt (raw : U16) : (tempQ3Of raw).toInt = (raw.toNat : Int) - 2048 := by
  have := raw.isLt
  rw [BitVec.toInt_eq_toNat_cond, tempQ3Of, BitVec.toNat_sub, BitVec.toNat_setWidth_of_le (by decide),
    show (2048#17).toNat = 2048 from rfl]
  split <;> omega

theorem tempQ3Of_eq_ofInt (raw : U16) : tempQ3Of raw = BitVec.ofInt 17 ((raw.toNat : Int) - 2048) := by
  rw [← tempQ3Of_toInt, BitVec.ofInt_toInt]

/-- R110: an eighth of `temp_q3` is the temperature. -/
theorem temperatureC_eq_tempQ3 (raw : U16) : temperatureC raw = ((tempQ3Of raw).toInt : Rat) / 8 := by
  rw [temperatureC, tempQ3Of_toInt, Rat.intCast_sub, Rat.intCast_natCast, Rat.intCast_ofNat]
  grind

/-! ## The checksum as a sum of bytes (R106, R107, R125) -/

/-- Reducing the exact sum once is adding the bytes as 8-bit numbers. -/
theorem ofNat_sum_toNat (f : List Byte) : BitVec.ofNat 8 (f.map BitVec.toNat).sum = f.sum := by
  induction f with
  | nil => rfl
  | cons b f ih =>
    rw [List.map_cons, List.sum_cons, List.sum_cons, BitVec.ofNat_add, ih, BitVec.ofNat_toNat, BitVec.setWidth_eq]

theorem csum_eq_sum (f : List Byte) : csum f = (f.take 8).sum := ofNat_sum_toNat _

theorem sum_toNat_le (f : List Byte) : (f.map BitVec.toNat).sum ≤ f.length * 255 := by
  induction f with
  | nil => exact Nat.le_refl 0
  | cons b f ih =>
    have := b.isLt
    rw [List.map_cons, List.sum_cons, List.length_cons]
    omega

/-- A byte replaced moves the 8-bit sum by the difference. -/
theorem sum_set {f : List Byte} {k : Nat} (hk : k < f.length) (b : Byte) :
    (f.set k b).sum = f.sum + (b - byteAt f k) := by
  induction f generalizing k with
  | nil => exact absurd hk (Nat.not_lt_zero k)
  | cons x f ih =>
    cases k with
    | zero =>
      have hx : byteAt (x :: f) 0 = x := rfl
      rw [List.set_cons_zero, List.sum_cons, List.sum_cons, hx]
      generalize f.sum = total
      bv_omega
    | succ k =>
      have hx : byteAt (x :: f) (k + 1) = byteAt f k := rfl
      rw [List.set_cons_succ, List.sum_cons, List.sum_cons, ih (Nat.lt_of_succ_lt_succ hk), hx, BitVec.add_assoc]

theorem byteAt_take {f : List Byte} {k n : Nat} (h : k < n) : byteAt (f.take n) k = byteAt f k := by
  rw [byteAt, byteAt, List.getD_eq_getElem?_getD, List.getD_eq_getElem?_getD, List.getElem?_take_of_lt h]

theorem csum_set_of_lt {f : List Byte} {k : Nat} (hk : k < f.length) (h8 : k < 8) (b : Byte) :
    csum (f.set k b) = csum f + (b - byteAt f k) := by
  have hlt : k < (f.take 8).length := by
    rw [List.length_take]
    omega
  rw [csum_eq_sum, csum_eq_sum, List.take_set, sum_set hlt, byteAt_take h8]

theorem csum_set_of_ge {f : List Byte} {k : Nat} (h8 : 8 ≤ k) (b : Byte) : csum (f.set k b) = csum f := by
  rw [csum, csum, List.take_set_of_le h8]

theorem byteAt_set_self {f : List Byte} {k : Nat} (hk : k < f.length) (b : Byte) : byteAt (f.set k b) k = b := by
  rw [byteAt, List.getD_eq_getElem?_getD, List.getElem?_set_self hk, Option.getD_some]

theorem byteAt_set_ne {f : List Byte} {j k : Nat} (h : k ≠ j) (b : Byte) : byteAt (f.set k b) j = byteAt f j := by
  simp only [byteAt, List.getD_eq_getElem?_getD, List.getElem?_set_ne h]

/-- R107, as a statement about the bytes. -/
theorem validFrame_iff {cfg : Config} {f : List Byte} :
    validFrame cfg f = true ↔ byteAt f 0 = cfg.sync0 ∧ byteAt f 1 = cfg.sync1 ∧ byteAt f 8 = csum f := by
  rw [validFrame, Bool.and_eq_true, syncMatches_iff, checksumOk, beq_iff_eq, and_assoc]

theorem validFrame_cons_cons (cfg : Config) (b0 b1 : Byte) (rest : List Byte) :
    validFrame cfg (b0 :: b1 :: rest) = (syncMatches cfg b0 b1 && checksumOk (b0 :: b1 :: rest)) :=
  rfl

/-! ## The completed frame (R105, R108 to R112, R114) -/

/-- R106: the checksum byte of the frame that the decoder assembles. -/
theorem checksumOk_frameOf_iff {cfg : Config} {b2 b3 b4 b5 b6 b7 b8 : Byte} :
    checksumOk (frameOf cfg [b2, b3, b4, b5, b6, b7, b8]) = true ↔
      b8.toNat = (cfg.sync0.toNat + cfg.sync1.toNat + b2.toNat + b3.toNat + b4.toNat + b5.toNat + b6.toNat
        + b7.toNat) % 256 := by
  rw [checksumOk, beq_iff_eq, ← BitVec.toNat_inj, csum, BitVec.toNat_ofNat]
  simp [byteAt, frameOf, Nat.add_assoc]

/-- R108 to R110: the sample of the assembled frame, from the body bytes. -/
theorem sampleOf_frameOf (cfg : Config) (b2 b3 b4 b5 b6 b7 b8 : Byte) :
    sampleOf (frameOf cfg [b2, b3, b4, b5, b6, b7, b8]) =
      { distance := BitVec.ofNat 16 (b2.toNat + 256 * b3.toNat)
        strength := BitVec.ofNat 16 (b4.toNat + 256 * b5.toNat)
        tempRaw := BitVec.ofNat 16 (b6.toNat + 256 * b7.toNat)
        tempQ3 := BitVec.ofInt 17 ((b6.toNat + 256 * b7.toNat : Nat) - 2048 : Int) } := by
  have htemp : tempQ3Of (le16 b6 b7) = BitVec.ofInt 17 ((b6.toNat + 256 * b7.toNat : Nat) - 2048 : Int) := by
    rw [tempQ3Of_eq_ofInt, le16_toNat]
  rw [← htemp]
  rfl

theorem completeFrame_of_bad_checksum {rest : List Byte} {s : State}
    (h : checksumOk (frameOf s.cfg rest) = false) : completeFrame rest s = resync .csumErr (dropBody s) := by
  simp only [completeFrame, h, Bool.false_eq_true, if_false]

/-- R114: a frame with the right checksum, every written field at once. -/
theorem completeFrame_of_checksum {rest : List Byte} {s : State} {x : Sample}
    (h : checksumOk (frameOf s.cfg rest) = true) (hx : sampleOf (frameOf s.cfg rest) = x) :
    completeFrame rest s =
      { s with
        phase := .pair0, body := [], smp := x
        win := if passesFilter s.cfg x.strength && s.cfg.aggPresent then (accept x.distance s).win else s.win
        out :=
          { sample := some x, pass := passesFilter s.cfg x.strength
            ev := if passesFilter s.cfg x.strength then .pass else .low, rd := none } } := by
  subst hx
  simp only [completeFrame, h, if_true]
  ext1
  case out => exact acceptIfPassing_out _ _
  all_goals simp

/-- R107, R114: a completed frame puts its sample out iff its checksum is right. -/
theorem completeFrame_puts_sample_iff (rest : List Byte) (s : State) :
    (completeFrame rest s).out.sample.isSome = checksumOk (frameOf s.cfg rest) := by
  cases h : checksumOk (frameOf s.cfg rest) with
  | false => rw [completeFrame_of_bad_checksum h]; rfl
  | true => rw [completeFrame_of_checksum h rfl]; rfl

/-- R107: the decoder tests only the checksum, since the sync word has matched: so the sample tells a valid frame. -/
theorem completeFrame_puts_sample_of_match {s : State} {b0 b1 : Byte} {rest : List Byte}
    (hm : syncMatches s.cfg b0 b1 = true) :
    (completeFrame rest s).out.sample.isSome = validFrame s.cfg (b0 :: b1 :: rest) := by
  rw [completeFrame_puts_sample_iff, validFrame_cons_cons, hm, Bool.true_and]
  obtain ⟨rfl, rfl⟩ := syncMatches_iff.mp hm
  rfl

theorem exists_sample_after_silent (n : Nat) (o : Output) :
    (∃ o' ∈ List.replicate n Output.silent ++ [o], o'.sample.isSome = true) ↔ o.sample.isSome = true := by
  simp [Output.silent, or_and_right, exists_or]

/-! ## Runs of received bytes -/

theorem runTrace_cons_of_next {i : Instr} {is : List Instr} {s t u : State} {outs : List Output}
    (h : exec i s = .next t) (h' : runTrace is t = some (outs, u)) : runTrace (i :: is) s = some (t.out :: outs, u) :=
  runTrace_cons.mpr ⟨t, outs, u, h, h', rfl⟩

theorem runTrace_single {i : Instr} {s t : State} (h : exec i s = .next t) : runTrace [i] s = some ([t.out], t) :=
  runTrace_cons_of_next h rfl

theorem runTrace_append {is js : List Instr} {s t u : State} {outs outs' : List Output}
    (h : runTrace is s = some (outs, t)) (h' : runTrace js t = some (outs', u)) :
    runTrace (is ++ js) s = some (outs ++ outs', u) := by
  induction is generalizing s outs with
  | nil =>
    obtain ⟨rfl, rfl⟩ : [] = outs ∧ s = t := by simpa [runTrace] using h
    exact h'
  | cons i is ih =>
    obtain ⟨v, rest, t, hexec, hrun, ⟨⟩⟩ := runTrace_cons.mp h
    exact runTrace_cons_of_next hexec (ih hrun)

/-- A frame in progress: what a state becomes when the sync word and the bytes of `body` have been read. -/
def State.readingBody (s : State) (body : List Byte) : State :=
  { s with phase := .body, body := body, out := Output.silent }

/-- R101 to R103: a pair from PAIR0 that is not the sync word is dropped whole. -/
theorem runTrace_mismatched_pair {s : State} {b0 b1 : Byte} (hseen : s.resetSeen = true) (hp : s.phase = .pair0)
    (hm : syncMatches s.cfg b0 b1 = false) :
    runTrace [.rxb b0, .rxb b1] s =
      some ([Output.silent, { Output.silent with ev := .syncErr }],
        { s with h0 := b0, out := { Output.silent with ev := .syncErr } }) := by
  have hdrop : receiveByte b1 (holdByte b0 s) =
      { s with h0 := b0, out := { Output.silent with ev := .syncErr } } := by
    rw [receiveByte_of_mismatch rfl hm]
    ext1 <;> simp [hp]
  exact runTrace_cons_of_next (exec_rxb hseen (receiveByte_of_pair0 hp b0))
    (runTrace_single (exec_rxb (s := holdByte b0 s) hseen hdrop))

/-- R102, R103: the sync word from PAIR0 enters BODY. -/
theorem runTrace_sync_pair {s : State} {b0 b1 : Byte} (hseen : s.resetSeen = true) (hp : s.phase = .pair0)
    (hm : syncMatches s.cfg b0 b1 = true) :
    runTrace [.rxb b0, .rxb b1] s =
      some ([Output.silent, Output.silent], State.readingBody { s with h0 := b0 } []) :=
  runTrace_cons_of_next (exec_rxb hseen (receiveByte_of_pair0 hp b0))
    (runTrace_single (exec_rxb (s := holdByte b0 s) hseen (receiveByte_of_match rfl hm)))

/-- R104: body bytes up to the 6th are stored, silently. -/
theorem runTrace_body_bytes {s : State} {body bs : List Byte} (hseen : s.resetSeen = true)
    (hlen : body.length + bs.length ≤ 6) :
    runTrace (bs.map Instr.rxb) (s.readingBody body) =
      some (List.replicate bs.length Output.silent, s.readingBody (body ++ bs)) := by
  induction bs generalizing body with
  | nil => rw [List.append_nil]; rfl
  | cons b bs ih =>
    rw [List.length_cons] at hlen
    have hpush : receiveByte b (s.readingBody body) = s.readingBody (body ++ [b]) :=
      receiveByte_of_short_body rfl (show body.length < 6 by omega) b
    have hrest := ih (body := body ++ [b]) (by rw [List.length_append, List.length_singleton]; omega)
    rw [List.append_assoc] at hrest
    exact runTrace_cons_of_next (exec_rxb (s := s.readingBody body) hseen hpush) hrest

/-- The sync word and up to 6 bytes after it. -/
theorem runTrace_partial_frame {s : State} {b0 b1 : Byte} {bs : List Byte} (hseen : s.resetSeen = true)
    (hp : s.phase = .pair0) (hm : syncMatches s.cfg b0 b1 = true) (hlen : bs.length ≤ 6) :
    runTrace ([b0, b1].map Instr.rxb ++ bs.map Instr.rxb) s =
      some (List.replicate (bs.length + 2) Output.silent, State.readingBody { s with h0 := b0 } bs) :=
  runTrace_append (runTrace_sync_pair hseen hp hm)
    (runTrace_body_bytes (s := { s with h0 := b0 }) (body := []) hseen (by simpa using hlen))

/-- The sync word and 7 bytes after it: the last completes the frame. -/
theorem runTrace_synced_frame {s : State} {b0 b1 b8 : Byte} {bs : List Byte} (hseen : s.resetSeen = true)
    (hp : s.phase = .pair0) (hm : syncMatches s.cfg b0 b1 = true) (hlen : bs.length = 6) :
    runTrace ((b0 :: b1 :: (bs ++ [b8])).map Instr.rxb) s =
      some (List.replicate 8 Output.silent ++
          [(completeFrame (bs ++ [b8]) (State.readingBody { s with h0 := b0 } bs)).out],
        completeFrame (bs ++ [b8]) (State.readingBody { s with h0 := b0 } bs)) := by
  have hbody := runTrace_partial_frame hseen hp hm (Nat.le_of_eq hlen)
  have hlast := runTrace_single (exec_rxb (s := State.readingBody { s with h0 := b0 } bs)
    (t := completeFrame (bs ++ [b8]) (State.readingBody { s with h0 := b0 } bs)) hseen
    (receiveByte_of_full_body rfl hlen b8))
  simpa [hlen] using runTrace_append hbody hlast

theorem length_flatMap_pairs (pairs : List (Byte × Byte)) :
    (pairs.flatMap fun p => [p.1, p.2]).length = 2 * pairs.length := by
  induction pairs with
  | nil => rfl
  | cons p pairs ih =>
    rw [List.flatMap_cons, List.length_append, ih, List.length_cons, List.length_cons, List.length_cons,
      List.length_nil]
    omega

/-- R57, R101: up to 3 pairs and one more byte put no sample out; a sync word among the pairs is followed by too few
bytes to leave BODY again, and without one the last byte is held in PAIR1. -/
theorem runTrace_pairs_and_byte {pairs : List (Byte × Byte)} {s : State} (b : Byte) (hseen : s.resetSeen = true)
    (hp : s.phase = .pair0) (hlen : pairs.length ≤ 3) :
    ∃ outs t,
      runTrace (((pairs.flatMap fun p => [p.1, p.2]) ++ [b]).map Instr.rxb) s = some (outs, t) ∧
      (∀ o ∈ outs, o.sample = none) ∧
      if pairs.any (fun p => syncMatches s.cfg p.1 p.2) then t.phase = .body else t.phase = .pair1 ∧ t.h0 = b := by
  induction pairs generalizing s with
  | nil =>
    exact ⟨_, _, runTrace_single (exec_rxb hseen (receiveByte_of_pair0 hp b)), by simp [Output.silent], rfl, rfl⟩
  | cons p pairs ih =>
    rw [List.length_cons] at hlen
    cases hm : syncMatches s.cfg p.1 p.2 with
    | true =>
      have hrest : ((pairs.flatMap fun q => [q.1, q.2]) ++ [b]).length ≤ 6 := by
        rw [List.length_append, length_flatMap_pairs, List.length_singleton]
        omega
      refine ⟨_, _, runTrace_partial_frame hseen hp hm hrest, fun o ho => ?_, ?_⟩
      · rw [List.eq_of_mem_replicate ho]
        rfl
      · rw [List.any_cons, hm]
        rfl
    | false =>
      obtain ⟨outs, t, hrun, hnone, hend⟩ :=
        ih (s := { s with h0 := p.1, out := { Output.silent with ev := .syncErr } }) hseen hp (by omega)
      refine ⟨_, t, runTrace_append (runTrace_mismatched_pair hseen hp hm) hrun, ?_, ?_⟩
      · simpa [Output.silent] using hnone
      · rwa [List.any_cons, hm]

/-! ## The obligations -/

/-- Settles O18: the frame's checksum and sample are those of the sync word and the body bytes. -/
theorem seventhBodyByteCompletesTheFrame : Obligations.SeventhBodyByteCompletesTheFrame := by
  intro s b2 b3 b4 b5 b6 b7 b8 hseen hp hbody sum strength x
  have hrecv : receiveByte b8 s = completeFrame [b2, b3, b4, b5, b6, b7, b8] s := by
    rw [receiveByte_of_full_body hp (by rw [hbody]; rfl), hbody]
    rfl
  have hsample : sampleOf (frameOf s.cfg [b2, b3, b4, b5, b6, b7, b8]) = x := sampleOf_frameOf ..
  have hstrength : x.strength.toNat = strength := le16_toNat b4 b5
  refine ⟨fun hsum => exec_rxb hseen ?_, fun hsum hlow => exec_rxb hseen ?_, fun hsum hpass => exec_rxb hseen ?_⟩
  · rw [hrecv, completeFrame_of_bad_checksum (by rwa [← Bool.not_eq_true, checksumOk_frameOf_iff])]
    rfl
  · have hfilter : passesFilter s.cfg x.strength = false := decide_eq_false (by omega)
    rw [hrecv, completeFrame_of_checksum (checksumOk_frameOf_iff.mpr hsum) hsample, hfilter]
    rfl
  · have hfilter : passesFilter s.cfg x.strength = true := decide_eq_true (by omega)
    rw [hrecv, completeFrame_of_checksum (checksumOk_frameOf_iff.mpr hsum) hsample, hfilter]
    rfl

/-- Settles O23. -/
theorem haltedIsTerminalUntilRst : Obligations.HaltedIsTerminalUntilRst := by
  refine fun s hseen hp => ⟨fun b => exec_rxb hseen (receiveByte_of_halted hp b),
    exec_tmo hseen (timeOut_of_halted hp), execIoerr_next.mpr ⟨hseen, by rw [if_pos hp]; rfl⟩,
    fun hagg => execRdavg_next.mpr ⟨hseen, hagg, rfl⟩,
    fun hagg => exec_refused_iff.mpr (.inr ⟨hseen, rfl, hagg, rfl⟩),
    execRdstat_next.mpr ⟨hseen, rfl⟩, fun i t h => ⟨eq_rst_of_exec_leaves_halted h hp, ?_⟩⟩
  rintro rfl
  obtain rfl := execRst_next.mp h
  simp

/-- Settles O35. -/
theorem temperatureIsExactFixedPoint : Obligations.TemperatureIsExactFixedPoint := by
  intro raw
  have hexact := tempQ3Of_toInt raw
  have := raw.isLt
  exact ⟨hexact, by omega, by omega, rfl, temperatureC_eq_tempQ3 raw⟩

/-- Settles O36: a sync byte is compared itself, byte 8 is compared with the sum of the others, and a byte between moves
that sum. -/
theorem oneChangedByteInvalidatesAFrame : Obligations.OneChangedByteInvalidatesAFrame := by
  intro cfg f k b hlen hk hvalid hne
  have hkf : k < f.length := by omega
  obtain ⟨h0, h1, h8⟩ := validFrame_iff.mp hvalid
  refine Bool.eq_false_iff.mpr fun hvalid' => hne ?_
  obtain ⟨h0', h1', h8'⟩ := validFrame_iff.mp hvalid'
  have hself := byteAt_set_self hkf b
  obtain rfl | rfl | rfl | ⟨h8k, hlt⟩ : k = 0 ∨ k = 1 ∨ k = 8 ∨ 8 ≠ k ∧ k < 8 := by omega
  · rw [← hself, h0', h0]
  · rw [← hself, h1', h1]
  · rw [← hself, h8', csum_set_of_ge (Nat.le_refl 8), h8]
  · rw [byteAt_set_ne h8k.symm, csum_set_of_lt hkf hlt, h8] at h8'
    generalize csum f = total at h8'
    bv_omega

/-- Settles O37. -/
theorem checksumMayBeReducedAtEachAddition : Obligations.ChecksumMayBeReducedAtEachAddition := by
  refine fun f => ⟨?_, ?_⟩
  · rw [csum_eq_sum, List.sum_eq_foldl]
    rfl
  · have hlen : (f.take 8).length ≤ 8 := List.length_take_le ..
    calc ((f.take 8).map BitVec.toNat).sum
        ≤ (f.take 8).length * 255 := sum_toNat_le _
      _ ≤ 8 * 255 := Nat.mul_le_mul_right _ hlen

/-- Settles O38: a frame that begins with the sync word is completed by its last byte; any other leaves at most 3 pairs
and one byte after the dropped pair. -/
theorem nineBytesYieldASampleIffValid : Obligations.NineBytesYieldASampleIffValid := by
  intro s f hseen hp hlen
  obtain ⟨b0, b1, b2, b3, b4, b5, b6, b7, b8, rfl⟩ : ∃ b0 b1 b2 b3 b4 b5 b6 b7 b8,
      f = [b0, b1, b2, b3, b4, b5, b6, b7, b8] :=
    match f, hlen with
    | [b0, b1, b2, b3, b4, b5, b6, b7, b8], _ => ⟨b0, b1, b2, b3, b4, b5, b6, b7, b8, rfl⟩
  cases hm : syncMatches s.cfg b0 b1 with
  | true =>
    have hrun := runTrace_synced_frame (bs := [b2, b3, b4, b5, b6, b7]) (b8 := b8) hseen hp hm rfl
    exact ⟨_, _, hrun,
      (exists_sample_after_silent 8 _).trans (Bool.eq_iff_iff.mp (completeFrame_puts_sample_of_match hm)),
      fun hne => absurd (hm.symm.trans hne) (by decide)⟩
  | false =>
    obtain ⟨outs, t, hrun, hnone, hend⟩ := runTrace_pairs_and_byte (pairs := [(b2, b3), (b4, b5), (b6, b7)])
      (s := { s with h0 := b0, out := { Output.silent with ev := .syncErr } }) b8 hseen hp (by simp)
    refine ⟨_, t, runTrace_append (runTrace_mismatched_pair hseen hp hm) hrun, ?_, fun _ => ?_⟩
    · have hinvalid : validFrame s.cfg [b0, b1, b2, b3, b4, b5, b6, b7, b8] = false := by
        rw [validFrame_cons_cons, hm, Bool.false_and]
      simpa [hinvalid, Output.silent] using hnone
    · simpa [byteAt, Bool.or_assoc] using hend

/-- Settles O40. -/
theorem shortReadDropsThePartialFrame : Obligations.ShortReadDropsThePartialFrame := by
  intro s bs hseen hp hlen
  have hbody := runTrace_partial_frame hseen hp (syncMatches_iff.mpr ⟨rfl, rfl⟩) hlen
  exact ⟨_, runTrace_append hbody (runTrace_single (exec_tmo hseen (timeOut_of_body rfl)))⟩

/-- Settles O41, by induction on the pairs. -/
theorem mismatchedPairsAreDroppedWhole : Obligations.MismatchedPairsAreDroppedWhole := by
  intro pairs
  induction pairs with
  | nil => exact fun s _ _ _ => ⟨[], s, rfl, rfl, rfl⟩
  | cons p pairs ih =>
    intro s hseen hp hm
    obtain ⟨hmp, hmrest⟩ := List.forall_mem_cons.mp hm
    obtain ⟨outs, t, hrun, hstate, rfl⟩ := ih { s with h0 := p.1, out := { Output.silent with ev := .syncErr } }
      hseen hp hmrest
    exact ⟨_, t, runTrace_append (runTrace_mismatched_pair hseen hp hmp) hrun, hstate, rfl⟩

/-- Settles O15. -/
theorem rxbInPair0HoldsTheByte : Obligations.RxbInPair0HoldsTheByte :=
  fun b _ hseen hp => exec_rxb hseen (receiveByte_of_pair0 hp b)

/-- Settles O16. -/
theorem rxbInPair1ComparesThePair : Obligations.RxbInPair1ComparesThePair := by
  refine fun b s hseen hp => ⟨fun hm => ?_, fun hm => ?_⟩
  · exact exec_rxb hseen (receiveByte_of_match hp (syncMatches_iff.mpr hm))
  · exact exec_rxb hseen (receiveByte_of_mismatch hp (by rwa [← Bool.not_eq_true, syncMatches_iff]))

/-- Settles O17. -/
theorem rxbInBodyStoresTheByte : Obligations.RxbInBodyStoresTheByte :=
  fun b _ hseen hp hlen => exec_rxb hseen (receiveByte_of_short_body hp hlen b)

/-- Settles O20. -/
theorem tmoInEachPhase : Obligations.TmoInEachPhase :=
  fun _ hseen => ⟨fun hp => exec_tmo hseen (timeOut_of_pair0 hp), fun hp => exec_tmo hseen (timeOut_of_pair1 hp),
    fun hp => exec_tmo hseen (timeOut_of_body hp), fun hp => exec_tmo hseen (timeOut_of_halted hp)⟩

end Sys2Proof.Machine
end

section
/-! The mean of the window (R144 to R146), the last `N` elements of a list, what an event and a run without RST make of
the window (R141 to R143, R149), and the statements of spec/41_aggregator.md. -/

namespace Sys2Proof.Machine

open Sys2Proof Sys2Proof.Safety

/-! ## The mean (R144 to R146) -/

theorem latest_eq_none_iff {win : List U16} : latest win = none ↔ win = [] := by
  unfold latest
  cases win <;> simp

/-- R145: the quotient's two bounds. -/
theorem latest_bounds {win : List U16} {m : U16} (h : latest win = some m) :
    win.length * m.toNat ≤ winSum win ∧ winSum win < win.length * (m.toNat + 1) := by
  obtain ⟨hne, hval⟩ := latest_toNat h
  rw [hval]
  exact ⟨Nat.mul_div_le _ _, Nat.lt_mul_div_succ _ (List.length_pos_iff.mpr hne)⟩

/-- R146: the least element is at most the mean. -/
theorem exists_le_latest {win : List U16} {m : U16} (h : latest win = some m) : ∃ d ∈ win, d.toNat ≤ m.toNat := by
  obtain ⟨hne, hval⟩ := latest_toNat h
  have hne' : win.map BitVec.toNat ≠ [] := mt List.map_eq_nil_iff.mp hne
  have hmin := List.min_le_sum_div_length_nat hne'
  obtain ⟨d, hd, hdmin⟩ := List.mem_map.mp (List.min_mem hne')
  rw [← hdmin, List.length_map] at hmin
  exact ⟨d, hd, hval ▸ hmin⟩

/-- R146: the greatest element is at least the mean. -/
theorem exists_latest_le {win : List U16} {m : U16} (h : latest win = some m) : ∃ d ∈ win, m.toNat ≤ d.toNat := by
  obtain ⟨hne, hval⟩ := latest_toNat h
  have hne' : win.map BitVec.toNat ≠ [] := mt List.map_eq_nil_iff.mp hne
  have hmax := List.sum_div_length_le_max_nat hne'
  obtain ⟨d, hd, hdmax⟩ := List.mem_map.mp (List.max_mem hne')
  rw [← hdmax, List.length_map] at hmax
  exact ⟨d, hd, hval ▸ hmax⟩

/-! ## The last elements of a list -/

theorem lastN_of_length_le {α : Type} {n : Nat} {xs : List α} (h : xs.length ≤ n) : lastN n xs = xs := by
  rw [lastN, Nat.sub_eq_zero_of_le h, List.drop_zero]

theorem lastN_length_le {α : Type} (n : Nat) (xs : List α) : (lastN n xs).length ≤ n := by
  rw [lastN, List.length_drop]
  omega

theorem lastN_eq_nil_iff {α : Type} {n : Nat} (hn : 1 ≤ n) {xs : List α} : lastN n xs = [] ↔ xs = [] := by
  rw [lastN, List.drop_eq_nil_iff, ← List.length_eq_zero_iff]
  omega

/-- What a list had before its last `n` elements does not count among the last `n` of an extension. -/
theorem lastN_lastN_append {α : Type} (n : Nat) (xs ys : List α) :
    lastN n (lastN n xs ++ ys) = lastN n (xs ++ ys) := by
  simp only [lastN, List.drop_append, List.drop_drop, List.length_append, List.length_drop]
  congr 2 <;> omega

/-! ## The window over an event (R142, R143, R148) -/

/-- R142: ACCEPT keeps the last `N` of the window and the new distance. -/
theorem accept_win_eq_lastN {s : State} (hn : 1 ≤ s.cfg.n) (hlen : s.win.length ≤ s.cfg.n) (d : U16) :
    (accept d s).win = lastN s.cfg.n (s.win ++ [d]) := by
  rw [accept_win]
  split
  · next hfull =>
    rw [lastN, List.length_append, List.length_singleton, ← hfull, Nat.add_sub_cancel_left,
      List.drop_append_of_le_length (by omega)]
  · next hroom =>
    have hfits : (s.win ++ [d]).length ≤ s.cfg.n := by
      rw [List.length_append, List.length_singleton]
      omega
    rw [lastN_of_length_le hfits]

/-- R24, R111, R112, R162: an event resets, or reports no passed distance and leaves the window, or reports one and
accepts it where the aggregator is built. -/
theorem exec_passed_cases {i : Instr} {s t : State} (h : exec i s = .next t) :
    (i = .rst ∧ t = resetState s) ∨
    (passedDistance t.out = none ∧ t.win = s.win) ∨
    ∃ d, passedDistance t.out = some d ∧ t.win = if s.cfg.aggPresent then (accept d s).win else s.win := by
  rcases exec_cases h with hrst | ⟨-, ⟨r, rfl, -⟩ | ⟨rfl, -⟩ | ⟨b, -, -, rfl⟩ | ⟨b, -, -, -, rfl⟩ |
    ⟨b, -, -, -, rfl⟩ | ⟨b, -, -, -, rfl⟩ | ⟨b, -, -, -, -, rfl⟩ | ⟨b, -, -, -, -, rfl⟩ |
    ⟨-, -, rfl⟩ | ⟨-, -, rfl⟩ | ⟨-, -, rfl⟩⟩
  · exact .inl hrst
  -- every case but the valid frame puts no sample out and leaves the window
  any_goals exact .inr (.inl ⟨rfl, rfl⟩)
  · generalize sampleOf (frameOf s.cfg (s.body ++ [b])) = x
    cases hpass : passesFilter s.cfg x.strength with
    | false => exact .inr (.inl ⟨by simp [passedDistance, hpass], by simp [hpass]⟩)
    | true => exact .inr (.inr ⟨x.distance, by simp [passedDistance, hpass], by simp [hpass]⟩)

/-- R141, for one event: the window takes in what the event's output reports as passed. -/
theorem exec_win_eq_lastN {i : Instr} {s t : State} (hn : 1 ≤ s.cfg.n) (hagg : s.cfg.aggPresent = true)
    (hlen : s.win.length ≤ s.cfg.n) (hi : i ≠ .rst) (h : exec i s = .next t) :
    t.win = lastN s.cfg.n (s.win ++ (passedDistance t.out).toList) := by
  rcases exec_passed_cases h with ⟨hrst, -⟩ | ⟨hnone, hwin⟩ | ⟨d, hsome, hwin⟩
  · exact absurd hrst hi
  · rw [hwin, hnone, Option.toList_none, List.append_nil, lastN_of_length_le hlen]
  · rw [hwin, hsome, if_pos hagg, accept_win_eq_lastN hn hlen, Option.toList_some]

/-! ## The window over a run -/

/-- A predicate that every completed event keeps holds after a completed run, if it did before. -/
theorem runTrace_keeps {P : State → Prop} (hstep : ∀ {i s t}, exec i s = .next t → P s → P t) {is : List Instr}
    {s t : State} {outs : List Output} (h : runTrace is s = some (outs, t)) (hs : P s) : P t := by
  induction is generalizing s outs with
  | nil =>
    obtain ⟨-, rfl⟩ : [] = outs ∧ s = t := by simpa [runTrace] using h
    exact hs
  | cons i is ih =>
    obtain ⟨u, rest, t, hexec, hrun, ⟨⟩⟩ := runTrace_cons.mp h
    exact ih hrun (hstep hexec hs)

theorem runTrace_keeps_cfg {is : List Instr} {s t : State} {outs : List Output}
    (h : runTrace is s = some (outs, t)) : t.cfg = s.cfg :=
  runTrace_keeps (P := fun u => u.cfg = s.cfg) (fun hexec hs => (exec_keeps hexec).1.trans hs) h rfl

/-- R36 over a run: the capacity that an event needs to keep the invariant is kept with it. -/
theorem runTrace_keeps_stateInv {is : List Instr} {s t : State} {outs : List Output} (hn : 1 ≤ s.cfg.n)
    (hinv : StateInv s) (h : runTrace is s = some (outs, t)) : StateInv t := by
  refine (runTrace_keeps (P := fun u => 1 ≤ u.cfg.n ∧ StateInv u) (fun hexec hu => ?_) h ⟨hn, hinv⟩).2
  obtain ⟨hcap, hkept⟩ := hu
  obtain ⟨hcfg, -, -⟩ := exec_keeps hexec
  exact ⟨hcfg ▸ hcap, exec_keeps_stateInv hcap hkept hexec⟩

/-- R141: the window over a run is the window over its events one by one, and what the first of them evicted does not
come back. -/
theorem runTrace_win_eq_lastN {is : List Instr} {s t : State} {outs : List Output} (hn : 1 ≤ s.cfg.n)
    (hagg : s.cfg.aggPresent = true) (hlen : s.win.length ≤ s.cfg.n) (hrst : Instr.rst ∉ is)
    (h : runTrace is s = some (outs, t)) : t.win = lastN s.cfg.n (s.win ++ passedDistances outs) := by
  induction is generalizing s outs with
  | nil =>
    obtain ⟨rfl, rfl⟩ : [] = outs ∧ s = t := by simpa [runTrace] using h
    rw [passedDistances, List.filterMap_nil, List.append_nil, lastN_of_length_le hlen]
  | cons i is ih =>
    obtain ⟨u, rest, t, hexec, hrun, ⟨⟩⟩ := runTrace_cons.mp h
    obtain ⟨hi, his⟩ := List.ne_and_not_mem_of_not_mem_cons hrst
    obtain ⟨hcfg, -, -⟩ := exec_keeps hexec
    have hwin := exec_win_eq_lastN hn hagg hlen hi.symm hexec
    have hlen' : u.win.length ≤ s.cfg.n := hwin ▸ lastN_length_le _ _
    have hrest := ih (s := u) (by rwa [hcfg]) (by rwa [hcfg]) (by rwa [hcfg]) his hrun
    rw [hrest, hcfg, hwin, lastN_lastN_append, List.append_assoc, passedDistances_cons]

/-! ## The obligations -/

/-- Settles O28: the mean of a non-empty window exists and is the quotient. -/
theorem meanTruncationLaw : Obligations.MeanTruncationLaw := by
  intro win hne
  obtain ⟨m, hm⟩ := Option.ne_none_iff_exists'.mp (mt latest_eq_none_iff.mp hne)
  exact ⟨m, hm, latest_bounds hm⟩

/-- Settles O29: where all elements are `v`, so are the element at most the mean and the one at least the mean. -/
theorem meanLiesBetweenLeastAndGreatest : Obligations.MeanLiesBetweenLeastAndGreatest := by
  intro win m h
  obtain ⟨d, hd, hdm⟩ := exists_le_latest h
  obtain ⟨e, he, hme⟩ := exists_latest_le h
  refine ⟨⟨d, hd, hdm⟩, ⟨e, he, hme⟩, fun v hall => ?_⟩
  rw [hall d hd] at hdm
  rw [hall e he] at hme
  exact BitVec.eq_of_toNat_eq (Nat.le_antisymm hme hdm)

/-- Settles O31. -/
theorem windowGrowsAtTheNewEndOnly : Obligations.WindowGrowsAtTheNewEndOnly := by
  intro i s t h
  rcases exec_passed_cases h with ⟨hrst, rfl⟩ | ⟨-, hwin⟩ | ⟨d, -, hwin⟩
  · exact .inl ⟨hrst, resetState_win s⟩
  · exact .inr (.inl hwin)
  · rw [accept_win] at hwin
    split at hwin
    · split at hwin
      · next hfull => exact .inr (.inr ⟨d, .inl ⟨hfull, hwin⟩⟩)
      · next hroom => exact .inr (.inr ⟨d, .inr ⟨hroom, hwin⟩⟩)
    · exact .inr (.inl hwin)

/-- Settles O32. -/
theorem windowHoldsTheLastAcceptedDistances : Obligations.WindowHoldsTheLastAcceptedDistances := by
  intro is s t outs hwf hagg hlen hrst h
  obtain ⟨hn, -⟩ := config_wf_iff.mp hwf
  exact runTrace_win_eq_lastN hn hagg hlen hrst h

/-- Settles O33: with an aggregator the window is the last `N` of what passed since the RST, and the capacity is not 0;
without one the invariant keeps it empty. -/
theorem unavailableIffNothingAcceptedSinceRst : Obligations.UnavailableIffNothingAcceptedSinceRst := by
  intro is s0 s t outs hwf hexec hrst h
  obtain rfl := execRst_next.mp hexec
  obtain ⟨hn, -⟩ := config_wf_iff.mp hwf
  rw [latest_eq_none_iff]
  cases hagg : s0.cfg.aggPresent with
  | true =>
    have hwin : t.win = lastN s0.cfg.n (passedDistances outs) :=
      runTrace_win_eq_lastN (s := resetState s0) hn hagg (Nat.zero_le _) hrst h
    rw [hwin, lastN_eq_nil_iff hn]
    simp
  | false =>
    obtain ⟨-, -, -, hempty⟩ := runTrace_keeps_stateInv (s := resetState s0) hn (stateInv_resetState s0) h
    have hwin : t.win = [] := hempty (by rw [runTrace_keeps_cfg h]; exact hagg)
    simp [hwin]

end Sys2Proof.Machine
end

section
/-! The causes of the error codes, HALTED over a run without RST, what RST changes in PAIR0, interleavings of the serial
source with the readers, and the statements of spec/60_exceptions.md. -/

namespace Sys2Proof.Machine

open Sys2Proof Sys2Proof.Safety

/-! ## The causes of the errors (R182 to R185) -/

/-- R103, as a statement about two bytes that are not the sync word. -/
theorem syncMatches_eq_false_iff {cfg : Config} {b0 b1 : Byte} :
    syncMatches cfg b0 b1 = false ↔ ¬(b0 = cfg.sync0 ∧ b1 = cfg.sync1) := by
  rw [← Bool.not_eq_true, syncMatches_iff]

/-- R106, for a wrong checksum. -/
theorem checksumOk_eq_false_iff {f : List Byte} : checksumOk f = false ↔ byteAt f 8 ≠ csum f :=
  beq_eq_false_iff_ne

/-- R182 to R185: the event that finds an error in state `s`, the code it puts out and the state it leaves. -/
inductive ErrorFound (s : State) : Instr → EventCode → State → Prop where
  | mismatchedPair (b : Byte) (hp : s.phase = .pair1) (hm : syncMatches s.cfg s.h0 b = false) :
      ErrorFound s (.rxb b) .syncErr (resync .syncErr s)
  | timeoutInPair (hp : s.phase = .pair1) : ErrorFound s .tmo .syncErr (resync .syncErr s)
  | shortRead (hp : s.phase = .body) : ErrorFound s .tmo .short (resync .short (dropBody s))
  | badChecksum (b : Byte) (hp : s.phase = .body) (hlen : 6 ≤ s.body.length)
      (hsum : checksumOk (frameOf s.cfg (s.body ++ [b])) = false) :
      ErrorFound s (.rxb b) .csumErr (resync .csumErr (dropBody s))
  | ioError (hp : s.phase ≠ .halted) : ErrorFound s .ioerr .ioErr (halt s)

/-- An error code is put out only after the first RST and by one of its causes. -/
theorem exec_errorFound {i : Instr} {s t : State} (h : exec i s = .next t) (herr : isError t.out.ev = true) :
    s.resetSeen = true ∧ ErrorFound s i t.out.ev t := by
  rcases exec_cases h with ⟨-, rfl⟩ | ⟨hseen, ⟨r, rfl, -⟩ | ⟨rfl, -⟩ | ⟨b, -, -, rfl⟩ | ⟨b, -, -, -, rfl⟩ |
    ⟨b, rfl, hp, hm, rfl⟩ | ⟨b, -, -, -, rfl⟩ | ⟨b, rfl, hp, hlen, hsum, rfl⟩ | ⟨b, -, -, -, -, rfl⟩ |
    ⟨rfl, hp, rfl⟩ | ⟨rfl, hp, rfl⟩ | ⟨rfl, hp, rfl⟩⟩
  · cases herr
  · cases herr
  · cases herr
  · cases herr
  · cases herr
  · exact ⟨hseen, .mismatchedPair b hp hm⟩
  · cases herr
  · exact ⟨hseen, .badChecksum b hp hlen hsum⟩
  · -- a valid frame reports PASS or LOW, which are no errors (R189)
    rw [acceptIfPassing_out, publish_out] at herr
    dsimp only at herr
    split at herr <;> cases herr
  · exact ⟨hseen, .timeoutInPair hp⟩
  · exact ⟨hseen, .shortRead hp⟩
  · exact ⟨hseen, .ioError hp⟩

/-- The same, for a code that is known. -/
theorem exec_errorFound_of_ev {i : Instr} {s t : State} {e : EventCode} (h : exec i s = .next t)
    (he : t.out.ev = e) (herr : isError e = true) : ErrorFound s i e t := by
  subst he
  exact (exec_errorFound h herr).2

/-- R188: neither recovery nor HALTED writes the window or the sample registers. -/
theorem ErrorFound.win_smp {i : Instr} {s t : State} {e : EventCode} (h : ErrorFound s i e t) :
    t.win = s.win ∧ t.smp = s.smp := by
  cases h <;> exact ⟨rfl, rfl⟩

/-! ## HALTED (R185, R192) -/

/-- R120, R185: only RST leaves HALTED, over any number of events. -/
theorem runTrace_keeps_halted {is : List Instr} {s t : State} {outs : List Output} (hrst : Instr.rst ∉ is)
    (h : runTrace is s = some (outs, t)) (hp : s.phase = .halted) : t.phase = .halted := by
  induction is generalizing s outs with
  | nil =>
    obtain ⟨-, rfl⟩ : [] = outs ∧ s = t := by simpa [runTrace] using h
    exact hp
  | cons i is ih =>
    obtain ⟨u, rest, t, hexec, hrun, ⟨⟩⟩ := runTrace_cons.mp h
    obtain ⟨hi, his⟩ := List.ne_and_not_mem_of_not_mem_cons hrst
    have hu : u.phase = .halted :=
      Decidable.byContradiction fun hne => hi.symm (eq_rst_of_exec_leaves_halted hexec hp hne)
    exact ih his hrun hu

/-! ## Recovery (R186, R187) -/

/-- R187: what RST has left to change in PAIR0 with no body byte. -/
theorem resetState_of_pair0 {s : State} (hseen : s.resetSeen = true) (hp : s.phase = .pair0) (hbody : s.body = []) :
    resetState s = { s with h0 := 0x00, win := [], smp := Sample.zero, out := Output.silent } := by
  ext1 <;> simp [hseen, hp, hbody]

/-- R186: in a state that keeps the invariant, recovery leaves PAIR0 and no body byte: in PAIR1 there was none, and in
BODY they are dropped. -/
theorem ErrorFound.recovers {i : Instr} {s t : State} {e : EventCode} (h : ErrorFound s i e t) (hinv : StateInv s)
    (he : e ≠ .ioErr) : t.resetSeen = s.resetSeen ∧ t.phase = .pair0 ∧ t.body = [] := by
  have hnil : s.phase ≠ .body → s.body = [] := body_nil_of_stateInv hinv
  cases h with
  | mismatchedPair b hp hm => exact ⟨rfl, rfl, hnil (by simp [hp])⟩
  | timeoutInPair hp => exact ⟨rfl, rfl, hnil (by simp [hp])⟩
  | shortRead hp => exact ⟨rfl, rfl, rfl⟩
  | badChecksum b hp hlen hsum => exact ⟨rfl, rfl, rfl⟩
  | ioError hp => exact absurd rfl he

/-! ## Interleavings (R64, R195) -/

/-- Every event that is not the reset controller's is the serial source's or a reader's. -/
theorem agentOf_serialSource_iff_ne_reader {i : Instr} (h : agentOf i ≠ .resetController) :
    agentOf i = .serialSource ↔ agentOf i ≠ .reader := by
  cases i with
  | rst => exact absurd rfl h
  | rxb _ | tmo | ioerr | rdavg | rdstat => simp [agentOf]

/-- Without events of the reset controller, a merged list without its reads is the serial source's list. -/
theorem filter_reads_eq_eventsOf {merged : List Instr} (h : eventsOf .resetController merged = []) :
    (merged.filter fun i => agentOf i != .reader) = eventsOf .serialSource merged := by
  refine List.filter_congr fun i hi => ?_
  have hne : agentOf i ≠ .resetController := fun heq => List.filter_eq_nil_iff.mp h i hi (beq_iff_eq.mpr heq)
  rw [Bool.eq_iff_iff, bne_iff_ne, beq_iff_eq, agentOf_serialSource_iff_ne_reader hne]

/-! ## The obligations -/

/-- Settles O43. -/
theorem errorsNeverReachTheAggregator : Obligations.ErrorsNeverReachTheAggregator := by
  intro i s t h herr
  obtain ⟨-, hfound⟩ := exec_errorFound h herr
  obtain ⟨hwin, hsmp⟩ := hfound.win_smp
  exact ⟨hwin, hsmp, by rw [hwin]⟩

/-- Settles O44. -/
theorem syncerrIsRaisedByExactlyTwoCases : Obligations.SyncerrIsRaisedByExactlyTwoCases := by
  intro i s t h
  refine ⟨⟨fun he => ?_, ?_⟩, fun he => ?_⟩
  · cases exec_errorFound_of_ev h he rfl with
    | mismatchedPair b hp hm => exact ⟨hp, .inr ⟨b, rfl, syncMatches_eq_false_iff.mp hm⟩⟩
    | timeoutInPair hp => exact ⟨hp, .inl rfl⟩
  · rintro ⟨hp, rfl | ⟨b, rfl, hm⟩⟩
    · obtain ⟨-, rfl⟩ := execTmo_next.mp h
      rw [timeOut_of_pair1 hp, resync_out]
    · obtain ⟨-, rfl⟩ := execRxb_next.mp h
      rw [receiveByte_of_mismatch hp (syncMatches_eq_false_iff.mpr hm), resync_out]
  · cases exec_errorFound_of_ev h he rfl <;> exact resync_phase _ _

/-- Settles O45. -/
theorem otherErrorsAreRaisedByTheirOneCause : Obligations.OtherErrorsAreRaisedByTheirOneCause := by
  intro i s t h
  refine ⟨fun he => ?_, fun he => ?_, fun he => ?_⟩
  · cases exec_errorFound_of_ev h he rfl with
    | shortRead hp => exact ⟨rfl, hp, rfl, rfl⟩
  · cases exec_errorFound_of_ev h he rfl with
    | badChecksum b hp hlen hsum => exact ⟨⟨b, rfl, hp, hlen, checksumOk_eq_false_iff.mp hsum⟩, rfl, rfl⟩
  · cases exec_errorFound_of_ev h he rfl with
    | ioError hp => exact ⟨rfl, hp, rfl, fun is outs u hrst hrun => runTrace_keeps_halted hrst hrun rfl⟩

/-- Settles O46: recovery leaves PAIR0 with no body byte, where RST has only the aggregator, `h0` and the outputs to
change. -/
theorem recoveryIsResynchronization : Obligations.RecoveryIsResynchronization := by
  intro i s t hinv h he
  obtain ⟨herr, hrecoverable⟩ : isError t.out.ev = true ∧ t.out.ev ≠ .ioErr := by
    rcases he with he | he | he <;> rw [he] <;> decide
  obtain ⟨hseen, hfound⟩ := exec_errorFound h herr
  obtain ⟨hkept, hp, hbody⟩ := hfound.recovers hinv hrecoverable
  exact execRst_next.mpr (resetState_of_pair0 (hkept.trans hseen) hp hbody).symm

/-- Settles O54: the serial source's events are the merged list without its reads. -/
theorem everyInterleavingOfReadsEndsAlike : Obligations.EveryInterleavingOfReadsEndsAlike := by
  intro serial reader merged s t outs hmerged h
  simp only [interleaves, Bool.and_eq_true, beq_iff_eq] at hmerged
  obtain ⟨⟨rfl, -⟩, hresets⟩ := hmerged
  obtain ⟨outs', t', hrun, hstate, -⟩ := runTrace_filter_reads h s.out
  rw [filter_reads_eq_eventsOf hresets] at hrun
  exact ⟨outs', t', hrun, hstate⟩

end Sys2Proof.Machine
end

section
/-! Configurations and elaboration, the phases around a step that puts a sample out, a run over words beside a run over
events, the clocked mapping, and the statements of spec/70_reset_and_hazards.md. -/

namespace Sys2Proof.Machine

open Sys2Proof Sys2Proof.Safety

/-! ## Configurations (R214) -/

theorem config_not_wf_iff {c : Config} : ¬c.wf = true ↔ c.n = 0 ∨ 15 < c.n := by
  rw [config_wf_iff]
  omega

theorem elaborate_of_wf {cfg : Config} (h : cfg.wf = true) : elaborate cfg = .next (State.resetWith cfg) :=
  if_pos h

theorem elaborate_of_not_wf {cfg : Config} (h : ¬cfg.wf = true) : elaborate cfg = .refused .badConfig :=
  if_neg h

/-! ## The phases around a sample (R114, R222) -/

/-- Only the byte that completes a frame puts a sample out, and the decoder is then back in PAIR0. -/
theorem exec_sample_phases {i : Instr} {s t : State} (h : exec i s = .next t) :
    t.out.sample = none ∨ (s.phase = .body ∧ t.phase = .pair0) := by
  rcases exec_cases h with ⟨-, rfl⟩ | ⟨-, ⟨r, rfl, -⟩ | ⟨rfl, -⟩ | ⟨b, -, -, rfl⟩ | ⟨b, -, -, -, rfl⟩ |
    ⟨b, -, -, -, rfl⟩ | ⟨b, -, -, -, rfl⟩ | ⟨b, -, -, -, -, rfl⟩ | ⟨b, -, hp, -, -, rfl⟩ |
    ⟨-, -, rfl⟩ | ⟨-, -, rfl⟩ | ⟨-, -, rfl⟩⟩
  -- every case but the valid frame puts no sample out
  any_goals exact .inl rfl
  · exact .inr ⟨hp, by rw [acceptIfPassing_phase, publish_phase, dropBody_phase]⟩

/-! ## A run over words and a run over events (R64, R223) -/

theorem exec_next_with_pending {i : Instr} {s t : State} (h : exec i s = .next t) (p : List EventWord) :
    exec i { s with pending := p } = .next { t with pending := p } := by
  rw [exec_of_pending_out i s p s.out, h]

theorem exec_refused_with_pending {i : Instr} {s : State} {r : Refusal} (h : exec i s = .refused r)
    (p : List EventWord) : exec i { s with pending := p } = .refused r := by
  rw [exec_of_pending_out i s p s.out, h]

/-- A step with an event's word at the head of the pending ones is that event, the other words waiting. -/
theorem step_of_pending_encode {s : State} (hwf : s.cfg.wf = true) (i : Instr) (rest : List EventWord) :
    step { s with pending := encode i :: rest } = exec i { s with pending := rest } :=
  (step_of_event rfl (decode_encode i)).trans (underConfig_of_wf hwf _)

theorem runEvents_cons_of_next {i : Instr} {s t : State} (h : exec i s = .next t) (is : List Instr) :
    runEvents (i :: is) s = runEvents is t := by
  rw [runEvents, h]

theorem runEvents_cons_of_refused {i : Instr} {s : State} {r : Refusal} (h : exec i s = .refused r)
    (is : List Instr) : runEvents (i :: is) s = .refused r := by
  rw [runEvents, h]

theorem core_run_succ_of_next {s t : State} (h : step s = .next t) (k : Nat) :
    Host.Core.run Sys2Proof.core (k + 1) s = Host.Core.run Sys2Proof.core k t := by
  have hcore : Sys2Proof.core.step s = .next t := h
  simp only [Host.Core.run, hcore]

theorem core_run_succ_of_refused {s : State} {r : Refusal} (h : step s = .refused r) (k : Nat) :
    Host.Core.run Sys2Proof.core (k + 1) s = .refused r := by
  have hcore : Sys2Proof.core.step s = .refused r := h
  simp only [Host.Core.run, hcore]

/-- Each step of the machine takes one event's word and is that event: the words left do not change what it does. -/
theorem core_run_of_encoded {is : List Instr} {s : State} (hwf : s.cfg.wf = true) (hp : s.pending = []) :
    Host.Core.run Sys2Proof.core is.length { s with pending := is.map encode } = runEvents is s := by
  induction is generalizing s with
  | nil =>
    have hs : { s with pending := [] } = s := by rw [← hp]
    exact congrArg Host.Outcome.next hs
  | cons i is ih =>
    have hstep := step_of_pending_encode hwf i (is.map encode)
    cases hexec : exec i s with
    | next t =>
      obtain ⟨hcfg, -, hpending⟩ := exec_keeps hexec
      rw [exec_next_with_pending hexec] at hstep
      rw [runEvents_cons_of_next hexec, ← ih (hcfg ▸ hwf) (hpending.trans hp)]
      exact core_run_succ_of_next hstep _
    | fault f => nomatch f
    | refused r =>
      rw [exec_refused_with_pending hexec] at hstep
      rw [runEvents_cons_of_refused hexec]
      exact core_run_succ_of_refused hstep _

/-! ## The clocked mapping (R220, R222) -/

theorem clockEdge_of_event {p : PortsIn} {s : State} {i : Instr} (hwf : s.cfg.wf = true)
    (h : edgeEvent p = some i) : clockEdge p s = exec i s := by
  rw [clockEdge, underConfig_of_wf hwf, h]

theorem clockEdge_of_no_event {p : PortsIn} {s : State} (hwf : s.cfg.wf = true) (h : edgeEvent p = none) :
    clockEdge p s = .next (idle s) := by
  rw [clockEdge, underConfig_of_wf hwf, h]

/-- After the first RST the ports have a value (R212), and an edge without an event changes only its pulses. -/
theorem exists_portsOut_idle {s : State} (hseen : s.resetSeen = true) :
    ∃ q, portsOut (idle s) = some q ∧ q.smpValid = false ∧ q.smpPass = false ∧ q.evCode = 0#3 ∧
      portsOut s = some { q with smpValid := s.out.sample.isSome, smpPass := s.out.pass, evCode := s.out.ev.code } :=
  ⟨_, if_pos hseen, rfl, rfl, rfl, if_pos hseen⟩

/-! ## The obligations -/

/-- Settles O49: a sample leaves the decoder in PAIR0, and the next one would need it in BODY. -/
theorem noTwoSamplesInARow : Obligations.NoTwoSamplesInARow := by
  intro i j s t u hi hj hsample
  have hpair0 : t.phase = .pair0 := by
    rcases exec_sample_phases hi with hnone | ⟨-, hp⟩
    · simp [hnone] at hsample
    · exact hp
  rcases exec_sample_phases hj with hnone | ⟨hbody, -⟩
  · exact hnone
  · simp [hpair0] at hbody

/-- Settles O55, by induction on the events. -/
theorem runningWordsIsRunningEvents : Obligations.RunningWordsIsRunningEvents := by
  intro is s hwf hp
  rw [core_run_of_encoded hwf hp]
  cases runEvents is s <;> rfl

/-- Settles O57. -/
theorem edgeAppliesAtMostOneEvent : Obligations.EdgeAppliesAtMostOneEvent := by
  intro p s hwf
  refine ⟨fun i h => clockEdge_of_event hwf h, clockEdge_of_no_event hwf, fun hseen h => ?_⟩
  exact ⟨idle s, (exists_portsOut_idle hseen).imp fun q hq => ⟨clockEdge_of_no_event hwf h, hq⟩⟩

/-- Settles O8. -/
theorem badOrChangedConfigurationIsRefused : Obligations.BadOrChangedConfigurationIsRefused := by
  refine ⟨fun cfg h => ?_, fun cfg h1 h15 => ?_, fun cfg w s hne => ?_⟩
  · exact elaborate_of_not_wf (config_not_wf_iff.mpr h)
  · exact elaborate_of_wf (config_wf_iff.mpr ⟨h1, h15⟩)
  · have hstep := stepUnder_of_ne hne w
    exact ⟨hstep, offer_of_refused hstep⟩

/-- Settles O12. -/
theorem eventsBeforeTheFirstResetAreRefused : Obligations.EventsBeforeTheFirstResetAreRefused :=
  fun _ _ hseen hi => exec_refused_iff.mpr (.inl ⟨hseen, hi, rfl⟩)

/-- Settles O56: each clause fixes the ports its branch of `edgeEvent` tests. -/
theorem edgePriority : Obligations.EdgePriority := by
  rintro ⟨rst, rxValid, rxData, rxTimeout, rxError⟩
  refine ⟨?_, ?_, ?_, ?_, ?_⟩
  · rintro rfl
    rfl
  · rintro rfl rfl
    rfl
  · rintro rfl rfl rfl
    rfl
  · rintro rfl rfl rfl rfl
    rfl
  · rintro rfl rfl rfl rfl
    rfl

end Sys2Proof.Machine
end

section
/-! What an event reports of a sample, the frames of the serial source's events, a valid frame fed from PAIR0, the idle
step and the refusal of a bad configuration, the reads beside the output ports, and the last statements. -/

namespace Sys2Proof.Machine

open Sys2Proof Sys2Proof.Safety

/-! ## Steps and edges without an event or without a JFD configuration (R214, R220) -/

theorem step_of_no_pending {s : State} (h : s.pending = []) : step s = underConfig s (.next (idle s)) := by
  rw [step, takeWord, h]

theorem underConfig_of_not_wf {s : State} (h : ¬s.cfg.wf = true) (r : Result) :
    underConfig s r = .refused .badConfig :=
  if_neg h

/-! ## IOERR in a known phase (R119) -/

theorem exec_ioerr_of_halted {s : State} (hseen : s.resetSeen = true) (hp : s.phase = .halted) :
    exec .ioerr s = .next (idle s) :=
  execIoerr_next.mpr ⟨hseen, (if_pos hp).symm⟩

theorem exec_ioerr_of_not_halted {s : State} (hseen : s.resetSeen = true) (hp : s.phase ≠ .halted) :
    exec .ioerr s = .next (halt s) :=
  execIoerr_next.mpr ⟨hseen, (if_neg hp).symm⟩

/-! ## What an event reports of a sample (R112, R114, R181) -/

/-- R112: the output record of a step that puts a sample out. -/
def sampleOutput (cfg : Config) (x : Sample) : Output where
  sample := some x
  pass := passesFilter cfg x.strength
  ev := if passesFilter cfg x.strength then .pass else .low
  rd := none

@[simp] theorem sampleOutput_sample (cfg : Config) (x : Sample) : (sampleOutput cfg x).sample = some x := rfl
@[simp] theorem sampleOutput_pass (cfg : Config) (x : Sample) :
    (sampleOutput cfg x).pass = passesFilter cfg x.strength := rfl

/-- R111: PASS tells that the filter passes the sample. -/
theorem sampleOutput_ev_pass {cfg : Config} {x : Sample} :
    (sampleOutput cfg x).ev = .pass ↔ passesFilter cfg x.strength = true := by
  cases h : passesFilter cfg x.strength <;> simp [sampleOutput, h]

/-- R111: LOW tells that it does not. -/
theorem sampleOutput_ev_low {cfg : Config} {x : Sample} :
    (sampleOutput cfg x).ev = .low ↔ passesFilter cfg x.strength = false := by
  cases h : passesFilter cfg x.strength <;> simp [sampleOutput, h]

theorem passesFilter_iff {cfg : Config} {strength : U16} :
    passesFilter cfg strength = true ↔ cfg.minStrength.toNat ≤ strength.toNat :=
  decide_eq_true_iff

theorem passesFilter_eq_false_iff {cfg : Config} {strength : U16} :
    passesFilter cfg strength = false ↔ strength.toNat < cfg.minStrength.toNat :=
  decide_eq_false_iff_not.trans Nat.not_le

/-- What an event other than RST reports and writes: a sample, which is kept in `smp` and accepted where it passes; or
none, and `smp` and the window as before. -/
inductive SampleReport (s t : State) : Prop where
  | noSample (hsample : t.out.sample = none) (hpass : t.out.pass = false) (hnotPass : t.out.ev ≠ .pass)
      (hnotLow : t.out.ev ≠ .low) (hsmp : t.smp = s.smp) (hwin : t.win = s.win)
  | sample (hout : t.out = sampleOutput s.cfg t.smp)
      (hwin : t.win = if passesFilter s.cfg t.smp.strength && s.cfg.aggPresent then (accept t.smp.distance s).win
        else s.win)

theorem exec_sampleReport {i : Instr} {s t : State} (h : exec i s = .next t) :
    (i = .rst ∧ t = resetState s) ∨ SampleReport s t := by
  rcases exec_cases h with hrst | ⟨-, ⟨r, rfl, -⟩ | ⟨rfl, -⟩ | ⟨b, -, -, rfl⟩ | ⟨b, -, -, -, rfl⟩ |
    ⟨b, -, -, -, rfl⟩ | ⟨b, -, -, -, rfl⟩ | ⟨b, -, -, -, -, rfl⟩ | ⟨b, -, -, -, -, rfl⟩ |
    ⟨-, -, rfl⟩ | ⟨-, -, rfl⟩ | ⟨-, -, rfl⟩⟩
  · exact .inl hrst
  -- every case but the valid frame puts no sample out and leaves the sample registers and the window
  any_goals exact .inr (.noSample rfl rfl nofun nofun rfl rfl)
  · refine .inr (.sample ?_ ?_)
    · rw [acceptIfPassing_out, acceptIfPassing_smp]
      rfl
    · simp

theorem SampleReport.smp_of_no_sample {s t : State} (h : SampleReport s t) (hnone : t.out.sample = none) :
    t.smp = s.smp ∧ t.out.pass = false := by
  cases h with
  | noSample _ hpass _ _ hsmp _ => exact ⟨hsmp, hpass⟩
  | sample hout _ => simp [hout] at hnone

theorem SampleReport.smp_of_sample {s t : State} (h : SampleReport s t) {x : Sample} (hx : t.out.sample = some x) :
    t.smp = x := by
  cases h with
  | noSample hsample => simp [hsample] at hx
  | sample hout _ => simpa [hout] using hx

/-- R148: only a passing sample, and only with an aggregator, moves the window. -/
theorem SampleReport.win_of_not_accepted {s t : State} (h : SampleReport s t)
    (hnot : t.out.pass = false ∨ s.cfg.aggPresent = false) : t.win = s.win := by
  cases h with
  | noSample _ _ _ _ _ hwin => exact hwin
  | sample hout hwin =>
    rw [hout, sampleOutput_pass] at hnot
    rw [hwin, Bool.and_eq_false_iff.mpr hnot]
    rfl

/-! ## What RXB leaves unchanged (R113) -/

theorem completeFrame_rd (rest : List Byte) (s : State) : (completeFrame rest s).out.rd = none := by
  rcases completeFrame_cases rest s with ⟨-, h⟩ | ⟨-, h⟩ <;> rw [h]
  · rfl
  · rw [acceptIfPassing_out, publish_out]

theorem completeFrame_h0 (rest : List Byte) (s : State) : (completeFrame rest s).h0 = s.h0 := by
  rcases completeFrame_cases rest s with ⟨-, h⟩ | ⟨-, h⟩ <;> rw [h]
  · rfl
  · rw [acceptIfPassing_h0, publish_h0, dropBody_h0]

theorem receiveByte_rd (b : Byte) (s : State) : (receiveByte b s).out.rd = none := by
  rcases receiveByte_cases b s with ⟨-, h⟩ | ⟨-, -, h⟩ | ⟨-, -, h⟩ | ⟨-, -, h⟩ | ⟨-, -, h⟩ | ⟨-, h⟩ <;> rw [h]
  · rfl
  · rfl
  · rfl
  · rfl
  · exact completeFrame_rd _ s
  · rfl

/-- R22: only PAIR0 holds a byte. -/
theorem receiveByte_h0 {s : State} (hp : s.phase ≠ .pair0) (b : Byte) : (receiveByte b s).h0 = s.h0 := by
  rcases receiveByte_cases b s with ⟨hp0, -⟩ | ⟨-, -, h⟩ | ⟨-, -, h⟩ | ⟨-, -, h⟩ | ⟨-, -, h⟩ | ⟨-, h⟩
  · exact absurd hp0 hp
  · rw [h, enterBody_h0]
  · rw [h, resync_h0]
  · rw [h, pushBody_h0]
  · rw [h, completeFrame_h0]
  · rw [h, idle_h0]

/-- R23: a byte that begins a pair or comes in HALTED leaves the body. -/
theorem receiveByte_body {s : State} (h1 : s.phase ≠ .pair1) (hb : s.phase ≠ .body) (b : Byte) :
    (receiveByte b s).body = s.body := by
  cases hp : s.phase with
  | pair0 => rw [receiveByte_of_pair0 hp, holdByte_body]
  | pair1 => exact absurd hp h1
  | body => exact absurd hp hb
  | halted => rw [receiveByte_of_halted hp, idle_body]

/-! ## A valid frame from PAIR0 (R105, R107, R114) -/

/-- A frame is a pair, six body bytes and the checksum byte. -/
theorem exists_pair_body_checksum {f : List Byte} (h : f.length = 9) :
    ∃ b0 b1 bs b8, bs.length = 6 ∧ f = b0 :: b1 :: (bs ++ [b8]) :=
  match f, h with
  | [b0, b1, b2, b3, b4, b5, b6, b7, b8], _ => ⟨b0, b1, [b2, b3, b4, b5, b6, b7], b8, rfl, rfl⟩

/-! ## The reads and the output ports (R30, R34, R88) -/

theorem avgWord_eq_append (s : State) : avgWord s = BitVec.ofBool (avgValid s) ++ avgValue s := by
  unfold avgWord avgValid avgValue
  cases latest s.win <;> rfl

theorem avgValue_of_not_valid {s : State} (h : avgValid s = false) : avgValue s = 0 := by
  rw [avgValue, Option.not_isSome_iff_eq_none.mp (Bool.eq_false_iff.mp h), Option.getD_none]

/-! ## The obligations -/

/-- Settles O19: what RXB reports of a sample fixes `smp` and the window. -/
theorem rxbFrame : Obligations.RxbFrame := by
  intro b s t h
  have hreport : SampleReport s t := (exec_sampleReport h).resolve_left (by simp)
  obtain ⟨-, ht⟩ := execRxb_next.mp h
  obtain ⟨hcfg, hrefused, hpending, hseen⟩ := receiveByte_keeps b s
  rw [← ht] at hcfg hrefused hpending hseen
  exact ⟨hcfg, hrefused, hseen, hpending, ht ▸ receiveByte_rd b s, fun hp => ht ▸ receiveByte_h0 hp b,
    hreport.smp_of_no_sample, fun _ => hreport.smp_of_sample, hreport.win_of_not_accepted,
    fun h1 hb => ht ▸ receiveByte_body h1 hb b⟩

/-- Settles O22, by the phase that TMO or IOERR finds. -/
theorem tmoAndIoerrFrame : Obligations.TmoAndIoerrFrame := by
  rintro i s t (rfl | rfl) h
  · obtain ⟨-, rfl⟩ := execTmo_next.mp h
    rcases timeOut_cases s with ⟨-, h⟩ | ⟨-, h⟩ | ⟨-, h⟩ <;> rw [h]
    · exact ⟨rfl, .inl rfl⟩
    · exact ⟨rfl, .inl rfl⟩
    · exact ⟨rfl, .inr rfl⟩
  · obtain ⟨-, rfl⟩ := execIoerr_next.mp h
    split
    · exact ⟨rfl, .inl rfl⟩
    · exact ⟨rfl, .inr rfl⟩

/-- Settles O39: the sync word has matched, so the frame that the last byte completes is the one that was fed. -/
theorem validFrameIsDelivered : Obligations.ValidFrameIsDelivered := by
  intro s f hseen hp hlen hvalid
  obtain ⟨b0, b1, bs, b8, hbs, rfl⟩ := exists_pair_body_checksum hlen
  rw [validFrame_cons_cons, Bool.and_eq_true] at hvalid
  obtain ⟨hm, hsum⟩ := hvalid
  have hrun := runTrace_synced_frame (b8 := b8) hseen hp hm hbs
  obtain ⟨rfl, rfl⟩ := syncMatches_iff.mp hm
  rw [completeFrame_of_checksum (rest := bs ++ [b8]) (s := State.readingBody { s with h0 := s.cfg.sync0 } bs)
    hsum rfl] at hrun
  exact ⟨_, _, hrun, rfl, rfl⟩

/-- Settles O47: each clause is read off the sample's output record, or off a report without a sample. -/
theorem sampleComesWithPassOrLow : Obligations.SampleComesWithPassOrLow := by
  intro i s t h
  rcases exec_sampleReport h with ⟨-, rfl⟩ | ⟨hsample, hpass, hnotPass, hnotLow, -, -⟩ | ⟨hout, hwin⟩
  · simp [Output.silent]
  · simp [hsample, hpass, hnotPass, hnotLow]
  · have hev : t.out.ev = .pass ∨ t.out.ev = .low := by
      rw [hout, sampleOutput_ev_pass, sampleOutput_ev_low, ← Bool.not_eq_true]
      exact Classical.em _
    refine ⟨?_, iff_of_true hev (by rw [hout, sampleOutput_sample]), fun he => ?_, fun he => ?_,
      fun he => absurd hev he⟩
    · rw [hout, sampleOutput_pass, sampleOutput_ev_pass]
    · rw [hout, sampleOutput_ev_pass] at he
      exact passesFilter_iff.mp he
    · rw [hout, sampleOutput_ev_low] at he
      exact ⟨passesFilter_eq_false_iff.mp he, by rw [hwin, he]; rfl⟩

/-- Settles O1: the events' words are their encodings, and the other words fail the decoder's tests. -/
theorem wordsDecodeAsTheSpecWritesThem : Obligations.WordsDecodeAsTheSpecWritesThem :=
  ⟨decode_encode (.rxb 0x00), decode_encode (.rxb 0xFF), decode_encode (.rxb 0x59), decode_encode .tmo,
    decode_encode .ioerr, decode_encode .rdavg, decode_encode .rdstat, decode_encode .rst, rfl, rfl, rfl, rfl⟩

/-- Settles O7. -/
theorem noPendingEventIdles : Obligations.NoPendingEventIdles :=
  fun _ hwf hp => (step_of_no_pending hp).trans (underConfig_of_wf hwf _)

/-- Settles O9. -/
theorem badConfigurationNeverSteps : Obligations.BadConfigurationNeverSteps :=
  fun _ hn => ⟨underConfig_of_not_wf (config_not_wf_iff.mpr hn) _,
    fun _ => underConfig_of_not_wf (config_not_wf_iff.mpr hn) _⟩

/-- Settles O21. -/
theorem ioerrHaltsOnce : Obligations.IoerrHaltsOnce :=
  fun _ hseen => ⟨exec_ioerr_of_not_halted hseen, exec_ioerr_of_halted hseen⟩

/-- Settles O58. -/
theorem readsSampleTheOutputPorts : Obligations.ReadsSampleTheOutputPorts := by
  intro s hseen hagg
  refine ⟨_, if_pos hseen, avgValue_of_not_valid, ?_, execRdstat_next.mpr ⟨hseen, rfl⟩⟩
  exact execRdavg_next.mpr ⟨hseen, hagg, by rw [avgWord_eq_append]; rfl⟩

end Sys2Proof.Machine
end
